-- ==== Sys2Proof/Word.lean ====
section
/-! DEFINITION. The unit of every field and of every access: the byte, and finite byte strings (R7, R13, R50). -/

namespace Sys2Proof

/-- A byte: 8 bits, unsigned, bit 0 the least significant (R7, R13, R14, D26). -/
abbrev Byte := BitVec 8

/-- `Bytes` of R13: a finite sequence of bytes, length 0 allowed, index 0 first. -/
abbrev Bytes := List Byte

end Sys2Proof
end

