-- ==== Sys2Proof/Machine/Checksum.lean ====
section
/-! DEFINITION. The arithmetic of the block (R117): the byte sum, its reduction, and the two conversions of a number to
digits. -/

namespace Sys2Proof.Machine

/-- `sum(b)` of R16 and R111: a natural number, every byte unsigned, no wrap. -/
def sumBytes : Bytes → Nat
  | [] => 0
  | b :: rest => b.toNat + sumBytes rest

/-- `s16` of R111: the sum reduced modulo 65536 (D1, log 11). -/
def s16 (b : Bytes) : BitVec 16 := BitVec.ofNat 16 (sumBytes b % 65536)

/-- `digit` of R111: one uppercase hexadecimal digit. -/
def digit (v : BitVec 4) : Byte :=
  if v.toNat ≤ 9 then BitVec.ofNat 8 (0x30 + v.toNat) else BitVec.ofNat 8 (0x41 + (v.toNat - 10))

/-- `hex4` of R111: four digits, most significant first, from the slices `[15:12]` down to `[3:0]`. -/
def hex4 (n : BitVec 16) : Bytes :=
  [digit (n.extractLsb' 12 4), digit (n.extractLsb' 8 4), digit (n.extractLsb' 4 4), digit (n.extractLsb' 0 4)]

/-- The checksum function of R111. -/
def cks (b : Bytes) : Bytes := hex4 (s16 b)

/-- `dec_w` of R16 and R144: `w` decimal digits, most significant first, zero padded; used for `n < 10^w` only. -/
def dec : Nat → Nat → Bytes
  | 0, _ => []
  | w + 1, n => dec w (n / 10) ++ [BitVec.ofNat 8 (0x30 + n % 10)]

end Sys2Proof.Machine
end

