-- ==== Sys2Proof/Config.lean ====
section
/-! DEFINITION. What is fixed for one block and what the spec leaves open: `VALIDATE` (R8), `TABLES` (R9) and the
reset input `filename_init` (R12). The open ones are constants without a body, so that no proof sees a value. -/

namespace Sys2Proof

/-- `VALIDATE` of R8: whether a frame-building operation checks field lengths. -/
inductive Validate where
  | enforce
  | bypass
  deriving DecidableEq, Repr, Inhabited

/-- The six code tables of R38 and R100. -/
inductive TableId where
  | mode
  | speed
  | align
  | font
  | color
  | symbol
  deriving DecidableEq, Repr, Inhabited

/-- A symbolic option name: an identifier compared for exact equality (D11), held as the bytes of its characters
(DESIGN CHOICE, log 2). -/
abbrev Name := Bytes

/-- The required key of `MODE` (R9, R102), "auto". -/
def nameAuto : Name := [0x61#8, 0x75#8, 0x74#8, 0x6F#8]
/-- The required key of `SPEED` (R9, R102), "normal". -/
def nameNormal : Name := [0x6E#8, 0x6F#8, 0x72#8, 0x6D#8, 0x61#8, 0x6C#8]
/-- The required key of `ALIGN` (R9, R102), "center". -/
def nameCenter : Name := [0x63#8, 0x65#8, 0x6E#8, 0x74#8, 0x65#8, 0x72#8]

/-- One code table as a finite map: the list of its (name, code) pairs (R38). -/
abbrev CodeTable := List (Name × Byte)

/-- A finite injective map (R9, R100): no name stands twice, and no two names share a code. -/
abbrev CodeTable.Injective (t : CodeTable) : Prop :=
  t.Pairwise fun a b => a.1 ≠ b.1 ∧ a.2 ≠ b.2

/-- `k` is a key of the table. -/
abbrev CodeTable.HasKey (t : CodeTable) (k : Name) : Prop := k ∈ t.map Prod.fst

/-- The first of the pairs of a list that share a name or a code, for each such group: an injective table whatever
the list is, and the list itself when it is already injective. -/
def CodeTable.injectivePart : CodeTable → CodeTable
  | [] => []
  | e :: rest =>
    e :: (CodeTable.injectivePart rest).filter fun x => decide (x.1 ≠ e.1 ∧ x.2 ≠ e.2)

/-- `TABLES` of R9: the contents of the code-table ROM. -/
structure Tables where
  mode : CodeTable
  speed : CodeTable
  align : CodeTable
  font : CodeTable
  color : CodeTable
  symbol : CodeTable
  deriving DecidableEq, Repr

/-- The table that an identifier names. -/
def Tables.table (t : Tables) : TableId → CodeTable
  | .mode => t.mode
  | .speed => t.speed
  | .align => t.align
  | .font => t.font
  | .color => t.color
  | .symbol => t.symbol

/-- What R9 requires of `TABLES`: six injective maps, with `auto` in `MODE`, `normal` in `SPEED` and `center` in
`ALIGN`. A `TABLES` without it is no configuration of the block (D25). -/
abbrev Tables.Admissible (t : Tables) : Prop :=
  t.mode.Injective ∧ t.speed.Injective ∧ t.align.Injective ∧
  t.font.Injective ∧ t.color.Injective ∧ t.symbol.Injective ∧
  t.mode.HasKey nameAuto ∧ t.speed.HasKey nameNormal ∧ t.align.HasKey nameCenter

/-- The configuration of one block: fixed when the block is set up, read by operations, written by none (R8, R37). -/
structure Config where
  validate : Validate
  tables : Tables
  deriving DecidableEq, Repr

/-- The open choice of `VALIDATE` (R8, D2): free, log 6. -/
opaque Config.openValidate : Validate
/-- The open entries of the six tables (R9, D10): free, log 7. -/
opaque Config.openEntries : TableId → List (Name × Byte)
/-- The open code of `auto` in `MODE` (R102): free, log 7. -/
opaque Config.openAutoCode : Byte
/-- The open code of `normal` in `SPEED` (R102): free, log 7. -/
opaque Config.openNormalCode : Byte
/-- The open code of `center` in `ALIGN` (R102): free, log 7. -/
opaque Config.openCenterCode : Byte
/-- The open reset input `filename_init` (R12, D34): free, log 8. -/
opaque Config.openFilename : Bytes

/-- The open `TABLES`, made admissible by construction (log 7): each required key first, then the open entries, less
those that would break injectivity. -/
def Config.openTables : Tables where
  mode := CodeTable.injectivePart ((nameAuto, Config.openAutoCode) :: Config.openEntries .mode)
  speed := CodeTable.injectivePart ((nameNormal, Config.openNormalCode) :: Config.openEntries .speed)
  align := CodeTable.injectivePart ((nameCenter, Config.openCenterCode) :: Config.openEntries .align)
  font := CodeTable.injectivePart (Config.openEntries .font)
  color := CodeTable.injectivePart (Config.openEntries .color)
  symbol := CodeTable.injectivePart (Config.openEntries .symbol)

/-- The open configuration, which the block created at `State.reset` has. -/
def Config.platform : Config := ⟨Config.openValidate, Config.openTables⟩

end Sys2Proof
end

