-- ==== Sys2Proof/Syntax.lean ====
section
/-! DEFINITION. The operations of the block: one constructor per row of the operation table (R86), with the operands of
its request format (R87). -/

namespace Sys2Proof

/-- The operand `now` of `SF_CLOCKSYNC`: a record of seven natural numbers (R87, R144). -/
structure Now where
  year : Nat
  month : Nat
  day : Nat
  hour : Nat
  minute : Nat
  second : Nat
  weekday : Nat
  deriving DecidableEq, Repr

/-- The 30 operations of R86. -/
inductive Instr where
  /-- `LOOKUP`, 0x00, F_LOOKUP (R101) -/
  | lookup (table : TableId) (name : Name)
  /-- `CHECKSUM`, 0x10, F_BYTES (R112) -/
  | checksum (data : Bytes)
  /-- `BUILD_FRAME`, 0x11, F_BYTES (R114) -/
  | buildFrame (body : Bytes)
  /-- `WR_TEXT`, 0x20, F_TEXTFULL (R121) -/
  | wrText (filename displayMode displaySpeed pauseTime showDateMask startTime stopTime align textData : Bytes)
  /-- `WR_VAR`, 0x21, F_VAR (R123) -/
  | wrVar (variableCode varAttr data : Bytes)
  /-- `WR_GFX`, 0x22, F_GFX (R125) -/
  | wrGfx (filename gfxAttr pixelData : Bytes)
  /-- `WR_SPECIAL`, 0x23, F_SPECIAL (R127) -/
  | wrSpecial (subcommand payload : Bytes)
  /-- `RD_SPECIAL`, 0x24, F_SPECIAL (R129) -/
  | rdSpecial (subcommand payload : Bytes)
  /-- `TEXT`, 0x25, F_TEXT (R130) -/
  | text (textData : Bytes)
  /-- `SF_CLEAR`, 0x30, F_NONE (R141) -/
  | sfClear
  /-- `SF_RESET`, 0x31, F_NONE (R142) -/
  | sfReset
  /-- `SF_CLOCK`, 0x32, F_PAYLOAD (R143) -/
  | sfClock (payload : Bytes)
  /-- `SF_CLOCKSYNC`, 0x33, F_NOW (R144) -/
  | sfClocksync (now : Now)
  /-- `SF_PASSWORD`, 0x34, F_PAYLOAD (R145) -/
  | sfPassword (payload : Bytes)
  /-- `SF_DEVNUM`, 0x35, F_PAYLOAD (R146) -/
  | sfDevnum (payload : Bytes)
  /-- `SF_WINDOWS`, 0x36, F_PAYLOAD (R147) -/
  | sfWindows (payload : Bytes)
  /-- `SF_DISPMODE`, 0x37, F_PAYLOAD (R148) -/
  | sfDispmode (payload : Bytes)
  /-- `SF_CUEVOICE`, 0x38, F_PAYLOAD (R149) -/
  | sfCuevoice (payload : Bytes)
  /-- `SF_PWMODE`, 0x39, F_PAYLOAD (R150) -/
  | sfPwmode (payload : Bytes)
  /-- `SF_BRIGHT`, 0x3A, F_PAYLOAD (R151) -/
  | sfBright (payload : Bytes)
  /-- `CFG_SENDER`, 0x40, F_CFG (R161) -/
  | cfgSender (value : Bytes)
  /-- `CFG_RECEIVER`, 0x41, F_CFG (R162) -/
  | cfgReceiver (value : Bytes)
  /-- `CFG_FILENAME`, 0x42, F_CFG (R163) -/
  | cfgFilename (value : Bytes)
  /-- `CFG_MODE`, 0x43, F_CFG (R164) -/
  | cfgMode (value : Bytes)
  /-- `CFG_SPEED`, 0x44, F_CFG (R165) -/
  | cfgSpeed (value : Bytes)
  /-- `CFG_PAUSE`, 0x45, F_CFG (R166) -/
  | cfgPause (value : Bytes)
  /-- `CFG_DATEMASK`, 0x46, F_CFG (R167) -/
  | cfgDatemask (value : Bytes)
  /-- `CFG_START`, 0x47, F_CFG (R168) -/
  | cfgStart (value : Bytes)
  /-- `CFG_STOP`, 0x48, F_CFG (R169) -/
  | cfgStop (value : Bytes)
  /-- `CFG_ALIGN`, 0x49, F_CFG (R170) -/
  | cfgAlign (value : Bytes)
  deriving DecidableEq, Repr

end Sys2Proof
end

