-- ==== Sys2Proof/Machine/Operands.lean ====
section
/-! DEFINITION. Operand assembly: the markers, the five body formats, the clock payload and the envelope. Operands are
copied as they are given; nothing is padded, truncated or escaped (R52, R82, R223). -/

namespace Sys2Proof.Machine

/-! ### Markers (R15) and command codes (R72) -/

def NUL : Byte := 0x00#8
def SOH : Byte := 0x01#8
def STX : Byte := 0x02#8
def ETX : Byte := 0x03#8
def EOT : Byte := 0x04#8

/-- Write text, `A` (R72). -/
def codeText : Byte := 0x41#8
/-- Write variable, `C` (R72). -/
def codeVar : Byte := 0x43#8
/-- Write graphics, `E` (R72). -/
def codeGfx : Byte := 0x45#8
/-- Write special, `W` (R72). -/
def codeWriteSpecial : Byte := 0x57#8
/-- Read special, `R` (R72). -/
def codeReadSpecial : Byte := 0x52#8

/-! ### Bodies (R55, R71) -/

/-- The one body shape of R71: `STX ++ code ++ fields ++ ETX`. -/
def body (code : Byte) (fields : Bytes) : Bytes := [STX, code] ++ fields ++ [ETX]

/-- Body format BT (R73, R121). -/
def bodyText (filename displayMode displaySpeed pauseTime showDateMask startTime stopTime prep align textData : Bytes) :
    Bytes :=
  body codeText (filename ++ displayMode ++ displaySpeed ++ pauseTime ++ showDateMask ++ startTime ++ stopTime ++ prep ++
    align ++ textData)

/-- Body format BV (R74, R123); the lead byte `FB` is not part of it (D18, log 16). -/
def bodyVar (variableCode varAttr data : Bytes) : Bytes := body codeVar (variableCode ++ varAttr ++ data)

/-- Body format BG (R75, R125). -/
def bodyGfx (filename gfxAttr pixelData : Bytes) : Bytes := body codeGfx (filename ++ gfxAttr ++ pixelData)

/-- Body format BW (R76, R127). -/
def bodyWriteSpecial (subcommand payload : Bytes) : Bytes := body codeWriteSpecial (subcommand ++ payload)

/-- Body format BR (R77, R129). -/
def bodyReadSpecial (subcommand payload : Bytes) : Bytes := body codeReadSpecial (subcommand ++ payload)

/-- `fmt(now)` of R144: the clock payload `YYYYMMDDHHMMSSW` of R79. -/
def fmtNow (now : Now) : Bytes :=
  dec 4 now.year ++ dec 2 now.month ++ dec 2 now.day ++ dec 2 now.hour ++ dec 2 now.minute ++ dec 2 now.second ++
  dec 1 now.weekday

/-! ### The envelope (R54, R70, R114) -/

/-- The frame around a body: header, SOH, sender, receiver, body, checksum of the body alone (R115), EOT. -/
def frameOf (sender receiver body : Bytes) : Bytes :=
  [NUL, NUL, NUL, NUL, NUL, SOH] ++ sender ++ receiver ++ body ++ cks body ++ [EOT]

/-- `MemWrite(off, n, v)` of R16 and R59: the write of the `n = len(v)` bytes `v` at byte offset `off` of the output frame
buffer. The Frame Builder writes in ascending offset, so the buffer always reaches up to `off`. -/
def memWrite (buffer : Bytes) (off : Nat) (v : Bytes) : Bytes :=
  buffer.take off ++ v ++ buffer.drop (off + v.length)

/-- The frame laid down part by part as R59 says: the seven parts of R54, each at its offset. -/
def frameByWrites (sender receiver body : Bytes) : Bytes :=
  let a := sender.length
  let b := receiver.length
  let n := body.length
  let f := memWrite [] 0 [NUL, NUL, NUL, NUL, NUL]
  let f := memWrite f 5 [SOH]
  let f := memWrite f 6 sender
  let f := memWrite f (6 + a) receiver
  let f := memWrite f (6 + a + b) body
  let f := memWrite f (6 + a + b + n) (cks body)
  memWrite f (10 + a + b + n) [EOT]

end Sys2Proof.Machine
end

