-- ==== Sys2Proof/WellFormed.lean ====
section
/-! DEFINITION. Which terms are requests, and the `WF_` predicates of R85.
The one check on a request is R144's bounds on `now`; every other operand may be any byte string (R82, R87, R183).
The `WF_` predicates name the value ranges a claim may assume of a caller; the block never evaluates one (R85, R183). -/

namespace Sys2Proof

/-- R144: `year <= 9999`, `month, day, hour, minute, second <= 99`, `weekday <= 9`; a record outside these bounds is not
a request. -/
def Now.inBounds (n : Now) : Bool :=
  decide (n.year ≤ 9999) && decide (n.month ≤ 99) && decide (n.day ≤ 99) && decide (n.hour ≤ 99) &&
  decide (n.minute ≤ 99) && decide (n.second ≤ 99) && decide (n.weekday ≤ 9)

/-- The term is a request the block may be given. -/
def Instr.wellFormed : Instr → Bool
  | .lookup _ _ => true
  | .checksum _ => true
  | .buildFrame _ => true
  | .wrText _ _ _ _ _ _ _ _ _ => true
  | .wrVar _ _ _ => true
  | .wrGfx _ _ _ => true
  | .wrSpecial _ _ => true
  | .rdSpecial _ _ => true
  | .text _ => true
  | .sfClear => true
  | .sfReset => true
  | .sfClock _ => true
  | .sfClocksync now => now.inBounds
  | .sfPassword _ => true
  | .sfDevnum _ => true
  | .sfWindows _ => true
  | .sfDispmode _ => true
  | .sfCuevoice _ => true
  | .sfPwmode _ => true
  | .sfBright _ => true
  | .cfgSender _ => true
  | .cfgReceiver _ => true
  | .cfgFilename _ => true
  | .cfgMode _ => true
  | .cfgSpeed _ => true
  | .cfgPause _ => true
  | .cfgDatemask _ => true
  | .cfgStart _ => true
  | .cfgStop _ => true
  | .cfgAlign _ => true

/-! ### The `WF_` predicates of R85 -/

/-- An ASCII byte: bit 7 clear. -/
def isAscii (b : Byte) : Bool := decide (b.toNat < 0x80)
/-- `'0'`–`'9'`. -/
def isDigit (b : Byte) : Bool := decide (0x30 ≤ b.toNat ∧ b.toNat ≤ 0x39)
/-- `'A'`–`'Z'`. -/
def isUpper (b : Byte) : Bool := decide (0x41 ≤ b.toNat ∧ b.toNat ≤ 0x5A)
/-- The value of an ASCII hexadecimal digit. Both cases count (DESIGN CHOICE, log 15: the case is in no source, N17). -/
def hexDigit (b : Byte) : Option Nat :=
  if 0x30 ≤ b.toNat ∧ b.toNat ≤ 0x39 then some (b.toNat - 0x30)
  else if 0x41 ≤ b.toNat ∧ b.toNat ≤ 0x46 then some (b.toNat - 0x41 + 10)
  else if 0x61 ≤ b.toNat ∧ b.toNat ≤ 0x66 then some (b.toNat - 0x61 + 10)
  else none
/-- `b` is a code of the table. -/
def CodeTable.hasCode (t : CodeTable) (b : Byte) : Bool := (t.map Prod.snd).contains b

def wfAddr (v : Bytes) : Bool := v.length == 2 && v.all isAscii

def wfFilename (v : Bytes) : Bool := v.length == 1 && v.all fun b => isDigit b || isUpper b

/-- `WF_mode`, `WF_speed`, `WF_align`: one byte, a code of the table. -/
def wfCode (t : CodeTable) (v : Bytes) : Bool :=
  v.length == 1 && v.all t.hasCode

def wfPause (v : Bytes) : Bool := v.length == 1 && v.all isDigit

/-- Two ASCII hexadecimal digits. Bit 7 of their value may be set or clear: R85 and R28 call it unused and do not say whether
a well-formed mask must have it clear (DESIGN CHOICE, log 15). -/
def wfDatemask (v : Bytes) : Bool := v.length == 2 && v.all fun b => (hexDigit b).isSome

def wfTime (v : Bytes) : Bool := v.length == 4 && v.all isDigit

/-- The bytes `02`, `03`, `04`, which well-formed text cannot contain (R223). -/
def isFrameControl (b : Byte) : Bool := b == 0x02#8 || b == 0x03#8 || b == 0x04#8

/-- `lead` is a lead byte of R81 and `code` may follow it: a `FONT` code after `FE`, a `COLOR` code after `FD`, any byte
after `FB` (variable) and `F9` (temperature), whose codes are in no source (N6, N2; DESIGN CHOICE, log 15). In no case is
the code one of the bytes that R223 excludes (log 15). -/
def wfInline (ts : Tables) (lead code : Byte) : Bool :=
  !isFrameControl code &&
  (lead == 0xFE#8 && ts.font.hasCode code || lead == 0xFD#8 && ts.color.hasCode code ||
   lead == 0xFB#8 || lead == 0xF9#8)

/-- Every byte is in 0x20–0x7E, or is a lead byte followed by one code byte. -/
def wfText (ts : Tables) : Bytes → Bool
  | [] => true
  | [b] => decide (0x20 ≤ b.toNat ∧ b.toNat ≤ 0x7E)
  | b :: c :: rest =>
    if 0x20 ≤ b.toNat ∧ b.toNat ≤ 0x7E then wfText ts (c :: rest)
    else wfInline ts b c && wfText ts rest

def wfGfxattr (v : Bytes) : Bool := v.length == 5 && v[2]? == some 0x2C#8

def wfClock (v : Bytes) : Bool := v.length == 15 && v.all isDigit

def wfPassword (v : Bytes) : Bool := v.length == 6 && v.all isAscii

/-- Two ASCII hexadecimal digits whose value is in 0x01–0xFE (D12, conflict C3). -/
def wfDevnum : Bytes → Bool
  | [h, l] =>
    match hexDigit h, hexDigit l with
    | some a, some b => decide (1 ≤ 16 * a + b ∧ 16 * a + b ≤ 0xFE)
    | _, _ => false
  | _ => false

/-- One window of R80: `SH SM , EH EM ;`. -/
def wfWindow (v : Bytes) : Bool :=
  v.length == 10 && (v.take 4).all isDigit && v[4]? == some 0x2C#8 && ((v.drop 5).take 4).all isDigit &&
  v[9]? == some 0x3B#8

def wfWindows (v : Bytes) : Bool :=
  v.length == 40 && wfWindow (v.take 10) && wfWindow ((v.drop 10).take 10) &&
  wfWindow ((v.drop 20).take 10) && wfWindow ((v.drop 30).take 10)

def wfDispmode (v : Bytes) : Bool := v == [0x41#8] || v == [0x54#8]

def wfOnoff (v : Bytes) : Bool := v == [0x31#8] || v == [0x30#8]

def wfBright : Bytes → Bool
  | [b] => b == 0x41#8 || b == 0x54#8 || decide (0x31 ≤ b.toNat ∧ b.toNat ≤ 0x38)
  | _ => false

end Sys2Proof
end

