-- ==== Sys2Proof/Decode.lean ====
section
/-! DEFINITION. From the bytes of a request to an operation, and back.
A request is a selector of R86 and the operands of its format, each with its own length carried along (R87). The source
gives no bytes for a request (N15); the layout here is the model's (DESIGN CHOICE, log 1): the selector byte, then each
operand in the order of R87. A natural number is written in base 128, least significant digit first, every digit but
the last with bit 7 set, and with no superfluous digit; a byte string is its length and then its bytes; a table is its
number; `now` is its seven numbers. -/

namespace Sys2Proof

/-- Why bytes are no request: the `invalid` of R88, by name. -/
inductive Reject where
  /-- no byte at all -/
  | noSelector
  /-- a selector that R86 does not list (R88) -/
  | unknownSelector (selector : Byte)
  /-- the bytes end inside a number -/
  | numberCutShort
  /-- a number written with a superfluous last digit -/
  | numberNotMinimal
  /-- the bytes end before an operand's length is reached -/
  | operandCutShort
  /-- a table number that names none of the six tables -/
  | unknownTable (number : Nat)
  /-- a time record outside the bounds of R144 -/
  | timeOutOfRange
  /-- bytes after the last operand -/
  | trailingBytes
  deriving DecidableEq, Repr

/-! ### Reading numbers and byte strings -/

/-- Reads one number. -/
def parseNat : Bytes → Except Reject (Nat × Bytes)
  | [] => .error .numberCutShort
  | b :: rest =>
    if b.toNat < 128 then .ok (b.toNat, rest)
    else
      match parseNat rest with
      | .error why => .error why
      | .ok (0, _) => .error .numberNotMinimal
      | .ok (n + 1, r) => .ok (b.toNat - 128 + 128 * (n + 1), r)

/-- Reads one byte string: its length, then that many bytes. -/
def parseBytes (w : Bytes) : Except Reject (Bytes × Bytes) :=
  match parseNat w with
  | .error why => .error why
  | .ok (n, r) => if n ≤ r.length then .ok (r.take n, r.drop n) else .error .operandCutShort

/-- The number of a table in a request, in the order of R9 (DESIGN CHOICE, log 2). -/
def TableId.number : TableId → Nat
  | .mode => 0
  | .speed => 1
  | .align => 2
  | .font => 3
  | .color => 4
  | .symbol => 5

/-- Reads a table's number. -/
def parseTable (w : Bytes) : Except Reject (TableId × Bytes) :=
  match parseNat w with
  | .error why => .error why
  | .ok (0, r) => .ok (.mode, r)
  | .ok (1, r) => .ok (.speed, r)
  | .ok (2, r) => .ok (.align, r)
  | .ok (3, r) => .ok (.font, r)
  | .ok (4, r) => .ok (.color, r)
  | .ok (5, r) => .ok (.symbol, r)
  | .ok (n + 6, _) => .error (.unknownTable (n + 6))

/-- Reads the record `now` and refuses one outside the bounds of R144. -/
def parseNow (w : Bytes) : Except Reject (Now × Bytes) := do
  let (year, w) ← parseNat w
  let (month, w) ← parseNat w
  let (day, w) ← parseNat w
  let (hour, w) ← parseNat w
  let (minute, w) ← parseNat w
  let (second, w) ← parseNat w
  let (weekday, w) ← parseNat w
  let now : Now := ⟨year, month, day, hour, minute, second, weekday⟩
  if now.inBounds then .ok (now, w) else .error .timeOutOfRange

/-! ### The request formats of R87 -/

/-- F_LOOKUP -/
def parseLookup (mk : TableId → Name → Instr) (w : Bytes) : Except Reject (Instr × Bytes) := do
  let (t, w) ← parseTable w
  let (n, w) ← parseBytes w
  .ok (mk t n, w)

/-- F_BYTES, F_TEXT, F_PAYLOAD and F_CFG: one byte string. -/
def parseOne (mk : Bytes → Instr) (w : Bytes) : Except Reject (Instr × Bytes) := do
  let (a, w) ← parseBytes w
  .ok (mk a, w)

/-- F_SPECIAL -/
def parseTwo (mk : Bytes → Bytes → Instr) (w : Bytes) : Except Reject (Instr × Bytes) := do
  let (a, w) ← parseBytes w
  let (b, w) ← parseBytes w
  .ok (mk a b, w)

/-- F_VAR and F_GFX -/
def parseThree (mk : Bytes → Bytes → Bytes → Instr) (w : Bytes) : Except Reject (Instr × Bytes) := do
  let (a, w) ← parseBytes w
  let (b, w) ← parseBytes w
  let (c, w) ← parseBytes w
  .ok (mk a b c, w)

/-- F_TEXTFULL -/
def parseTextFull (w : Bytes) : Except Reject (Instr × Bytes) := do
  let (filename, w) ← parseBytes w
  let (displayMode, w) ← parseBytes w
  let (displaySpeed, w) ← parseBytes w
  let (pauseTime, w) ← parseBytes w
  let (showDateMask, w) ← parseBytes w
  let (startTime, w) ← parseBytes w
  let (stopTime, w) ← parseBytes w
  let (align, w) ← parseBytes w
  let (textData, w) ← parseBytes w
  .ok (.wrText filename displayMode displaySpeed pauseTime showDateMask startTime stopTime align textData, w)

/-- F_NOW -/
def parseClocksync (w : Bytes) : Except Reject (Instr × Bytes) := do
  let (now, w) ← parseNow w
  .ok (.sfClocksync now, w)

/-- The operation map of R86: the selector decides the format in which the operands are read. -/
def decodeOperands (selector : Byte) (w : Bytes) : Except Reject (Instr × Bytes) :=
  match selector with
  | 0x00#8 => parseLookup .lookup w
  | 0x10#8 => parseOne .checksum w
  | 0x11#8 => parseOne .buildFrame w
  | 0x20#8 => parseTextFull w
  | 0x21#8 => parseThree .wrVar w
  | 0x22#8 => parseThree .wrGfx w
  | 0x23#8 => parseTwo .wrSpecial w
  | 0x24#8 => parseTwo .rdSpecial w
  | 0x25#8 => parseOne .text w
  | 0x30#8 => .ok (.sfClear, w)
  | 0x31#8 => .ok (.sfReset, w)
  | 0x32#8 => parseOne .sfClock w
  | 0x33#8 => parseClocksync w
  | 0x34#8 => parseOne .sfPassword w
  | 0x35#8 => parseOne .sfDevnum w
  | 0x36#8 => parseOne .sfWindows w
  | 0x37#8 => parseOne .sfDispmode w
  | 0x38#8 => parseOne .sfCuevoice w
  | 0x39#8 => parseOne .sfPwmode w
  | 0x3A#8 => parseOne .sfBright w
  | 0x40#8 => parseOne .cfgSender w
  | 0x41#8 => parseOne .cfgReceiver w
  | 0x42#8 => parseOne .cfgFilename w
  | 0x43#8 => parseOne .cfgMode w
  | 0x44#8 => parseOne .cfgSpeed w
  | 0x45#8 => parseOne .cfgPause w
  | 0x46#8 => parseOne .cfgDatemask w
  | 0x47#8 => parseOne .cfgStart w
  | 0x48#8 => parseOne .cfgStop w
  | 0x49#8 => parseOne .cfgAlign w
  | other => .error (.unknownSelector other)

/-- Reads one request from the front of the bytes and gives the bytes after it. -/
def decode : Bytes → Except Reject (Instr × Bytes)
  | [] => .error .noSelector
  | selector :: w => decodeOperands selector w

/-- The decoder of whole requests (R88): the bytes of one request and nothing after them. -/
def decodeRequest (w : Bytes) : Except Reject Instr :=
  match decode w with
  | .error why => .error why
  | .ok (i, []) => .ok i
  | .ok (_, _ :: _) => .error .trailingBytes

/-! ### Writing a request -/

/-- A number in base 128, least significant digit first; `fuel` bounds the digits that may follow. -/
def encodeNatFuel : Nat → Nat → Bytes
  | 0, n => [BitVec.ofNat 8 n]
  | fuel + 1, n =>
    if n < 128 then [BitVec.ofNat 8 n]
    else BitVec.ofNat 8 (n % 128 + 128) :: encodeNatFuel fuel (n / 128)

/-- A number, as `parseNat` reads it. -/
def encodeNat (n : Nat) : Bytes := encodeNatFuel n n

/-- A byte string: its length, then its bytes. -/
def encodeBytes (b : Bytes) : Bytes := encodeNat b.length ++ b

/-- The record `now`. -/
def encodeNow (n : Now) : Bytes :=
  encodeNat n.year ++ encodeNat n.month ++ encodeNat n.day ++ encodeNat n.hour ++ encodeNat n.minute ++
  encodeNat n.second ++ encodeNat n.weekday

/-- The selector column of R86. -/
def Instr.selector : Instr → Byte
  | .lookup _ _ => 0x00#8
  | .checksum _ => 0x10#8
  | .buildFrame _ => 0x11#8
  | .wrText _ _ _ _ _ _ _ _ _ => 0x20#8
  | .wrVar _ _ _ => 0x21#8
  | .wrGfx _ _ _ => 0x22#8
  | .wrSpecial _ _ => 0x23#8
  | .rdSpecial _ _ => 0x24#8
  | .text _ => 0x25#8
  | .sfClear => 0x30#8
  | .sfReset => 0x31#8
  | .sfClock _ => 0x32#8
  | .sfClocksync _ => 0x33#8
  | .sfPassword _ => 0x34#8
  | .sfDevnum _ => 0x35#8
  | .sfWindows _ => 0x36#8
  | .sfDispmode _ => 0x37#8
  | .sfCuevoice _ => 0x38#8
  | .sfPwmode _ => 0x39#8
  | .sfBright _ => 0x3A#8
  | .cfgSender _ => 0x40#8
  | .cfgReceiver _ => 0x41#8
  | .cfgFilename _ => 0x42#8
  | .cfgMode _ => 0x43#8
  | .cfgSpeed _ => 0x44#8
  | .cfgPause _ => 0x45#8
  | .cfgDatemask _ => 0x46#8
  | .cfgStart _ => 0x47#8
  | .cfgStop _ => 0x48#8
  | .cfgAlign _ => 0x49#8

/-- The operands, in the order of R87. -/
def encodeOperands : Instr → Bytes
  | .lookup t n => encodeNat t.number ++ encodeBytes n
  | .checksum a => encodeBytes a
  | .buildFrame a => encodeBytes a
  | .wrText fn dm ds pt md st sp al td =>
    encodeBytes fn ++ encodeBytes dm ++ encodeBytes ds ++ encodeBytes pt ++ encodeBytes md ++ encodeBytes st ++
    encodeBytes sp ++ encodeBytes al ++ encodeBytes td
  | .wrVar a b c => encodeBytes a ++ encodeBytes b ++ encodeBytes c
  | .wrGfx a b c => encodeBytes a ++ encodeBytes b ++ encodeBytes c
  | .wrSpecial a b => encodeBytes a ++ encodeBytes b
  | .rdSpecial a b => encodeBytes a ++ encodeBytes b
  | .text a => encodeBytes a
  | .sfClear => []
  | .sfReset => []
  | .sfClock a => encodeBytes a
  | .sfClocksync now => encodeNow now
  | .sfPassword a => encodeBytes a
  | .sfDevnum a => encodeBytes a
  | .sfWindows a => encodeBytes a
  | .sfDispmode a => encodeBytes a
  | .sfCuevoice a => encodeBytes a
  | .sfPwmode a => encodeBytes a
  | .sfBright a => encodeBytes a
  | .cfgSender a => encodeBytes a
  | .cfgReceiver a => encodeBytes a
  | .cfgFilename a => encodeBytes a
  | .cfgMode a => encodeBytes a
  | .cfgSpeed a => encodeBytes a
  | .cfgPause a => encodeBytes a
  | .cfgDatemask a => encodeBytes a
  | .cfgStart a => encodeBytes a
  | .cfgStop a => encodeBytes a
  | .cfgAlign a => encodeBytes a

/-- The bytes of a request. -/
def encode (i : Instr) : Bytes := i.selector :: encodeOperands i

/-! ### The numbering of the operation table -/

/-- The bytes of a table word: byte `k` is bits `8k+7` to `8k`, and zeros follow for the operand bytes the table gives
no bits to; the longest request whose operand bytes are all zero is `WR_TEXT`'s, ten bytes. -/
def tableBytes (nbits w : Nat) : Bytes :=
  (List.range (nbits / 8)).map (fun k => BitVec.ofNat 8 (w >>> (8 * k))) ++ List.replicate 10 0x00#8

/-- The operation the decoder reads from a table word. -/
def decodeTableWord (nbits w : Nat) : Option Instr :=
  match decode (tableBytes nbits w) with
  | .ok (i, _) => some i
  | .error _ => none

/-- The bytes of the one request that stands at the front of a table word's bytes, without the zeros beyond its own
length; the bytes as they are when no request stands there. -/
def tableRequest (nbits w : Nat) : Bytes :=
  match decode (tableBytes nbits w) with
  | .ok (_, rest) => (tableBytes nbits w).take ((tableBytes nbits w).length - rest.length)
  | .error _ => tableBytes nbits w

end Sys2Proof
end

