-- ==== Sys2Proof/Machine/CodeTables.lean ====
section
/-! DEFINITION. The read of the code-table ROM, `MemRead(t, k)` (R58). -/

namespace Sys2Proof.Machine

/-- The code that a finite map holds for a name, or none; names are compared for exact equality (R101, D11). -/
def codeOf : CodeTable → Name → Option Byte
  | [], _ => none
  | (n, c) :: rest, k => if n = k then some c else codeOf rest k

/-- `MemRead(t, k)` of R58. -/
def memRead (tables : Tables) (t : TableId) (k : Name) : Option Byte := codeOf (tables.table t) k

end Sys2Proof.Machine
end

