-- ==== Sys2Proof/Machine/State.lean ====
section
/-! DEFINITION. The state of the block and its reset: the Sign Session (R20, R21), the configuration it was set up with
(R37), the requests that have arrived, and the responses given so far (R228). -/

namespace Sys2Proof.Machine

/-- The names of the fixed-width fields that an error may carry (R181). -/
inductive Field where
  | senderAddress
  | receiverAddress
  | filename
  | displayMode
  | displaySpeed
  | pauseTime
  | showDateMask
  | startTime
  | stopTime
  | align
  | variableCode
  /-- R181's field of `WR_VAR` that is nominally one byte. -/
  | varAttr
  | gfxAttr
  | subcommand
  | clock
  | password
  | deviceNumber
  | windows
  | sfDisplayMode
  | cueVoice
  | passwordMode
  | brightness
  deriving DecidableEq, Repr

/-- The error kinds of R180. An error is a response, not a stop (R18, R187). -/
inductive Error where
  /-- raised by every frame-building operation, under `ENFORCE` only (R181) -/
  | malformedField (field : Field) (expected actual : Nat)
  /-- in the taxonomy, never raised (R184) -/
  | unrepresentableChecksum (sum : Nat)
  /-- raised by `LOOKUP` only, in both modes (R185) -/
  | unknownOption (table : TableId) (name : Name)
  deriving DecidableEq, Repr

/-- The responses of R18. -/
inductive Response where
  | frame (f : Bytes)
  | cks (c : Bytes)
  | code (b : Byte)
  | ok
  | error (e : Error)
  deriving DecidableEq, Repr

/-- The eleven session registers, `x[0]` to `x[10]` (R21). -/
inductive Reg where
  | senderAddress
  | receiverAddress
  | filename
  | displayMode
  | displaySpeed
  | pauseTime
  | showDateMask
  | startTime
  | stopTime
  | align
  | prep
  deriving DecidableEq, Repr

/-- The Sign Session (R21): the ten registers that hold something. `x[10]` is hardwired (R31) and needs no storage. A
register may hold a byte string of any length (R32). -/
structure Session where
  senderAddress : Bytes
  receiverAddress : Bytes
  filename : Bytes
  displayMode : Bytes
  displaySpeed : Bytes
  pauseTime : Bytes
  showDateMask : Bytes
  startTime : Bytes
  stopTime : Bytes
  align : Bytes
  deriving DecidableEq, Repr

/-- The machine: the session, which is the block's own state (R20); the configuration, which no operation writes (R37,
log 5); the requests that have arrived and are not yet taken, first come first (R35, log 3); and the responses given so
far, oldest first (R228, log 4), which no operation reads. -/
structure State where
  session : Session
  config : Config
  pending : List Bytes
  responses : List Response
  deriving DecidableEq, Repr

/-- Reasons for which the machine stops by itself: none. An operation always ends with a response (R187, R227). -/
inductive Fault where
  deriving DecidableEq, Repr

/-- Reasons for which something is not run. -/
inductive Refusal where
  /-- An operation without a meaning yet, by its mnemonic; raised by `exec`'s arm alone. Safe. -/
  | notModelled (mnemonic : String)
  /-- Bytes that are no request: refused at the boundary by `step`'s decoder, and the block is not entered (R88, U15).
  Safe. -/
  | invalidRequest (why : Reject)
  /-- A time record outside the bounds of R144, which is not a request: raised by `SF_CLOCKSYNC`'s meaning. The decoder
  refuses such a record first, so no step meets it. Safe. -/
  | timeOutOfRange (now : Now)
  deriving DecidableEq, Repr

/-- The inputs of reset (R12, R211); `filename_init` has no default. -/
structure ResetInputs where
  senderInit : Bytes := [0x46#8, 0x46#8]
  receiverInit : Bytes := [0x30#8, 0x30#8]
  filenameInit : Bytes
  deriving DecidableEq, Repr

/-- Reset, the creation of a Sign Session (R210, R211): overrides are stored unchecked, the three codes are read from the
tables, and the block is idle. -/
def State.create (c : Config) (i : ResetInputs) : State where
  session :=
    { senderAddress := i.senderInit
      receiverAddress := i.receiverInit
      filename := i.filenameInit
      displayMode := (memRead c.tables .mode nameAuto).toList
      displaySpeed := (memRead c.tables .speed nameNormal).toList
      pauseTime := [0x32#8]
      showDateMask := [0x37#8, 0x46#8]
      startTime := [0x30#8, 0x30#8, 0x30#8, 0x30#8]
      stopTime := [0x32#8, 0x34#8, 0x30#8, 0x30#8]
      align := (memRead c.tables .align nameCenter).toList }
  config := c
  pending := []
  responses := []

/-- The machine right after reset: the open configuration, the default addresses and the open filename (R34, log 6 to
log 9). -/
def State.reset : State := State.create Config.platform { filenameInit := Config.openFilename }

end Sys2Proof.Machine
end

