-- ==== Sys2Proof/Machine/Ops.lean ====
section
/-! DEFINITION. The shared operations: session registers, responses, raising an error, the length check, building a
frame, and the queue of requests. -/

namespace Sys2Proof.Machine

/-! ### Session registers (R21, R33) -/

/-- The number of a register (R21). -/
def Reg.number : Reg → Nat
  | .senderAddress => 0
  | .receiverAddress => 1
  | .filename => 2
  | .displayMode => 3
  | .displaySpeed => 4
  | .pauseTime => 5
  | .showDateMask => 6
  | .startTime => 7
  | .stopTime => 8
  | .align => 9
  | .prep => 10

/-- The nominal width of a register in bytes (R21). -/
def Reg.width : Reg → Nat
  | .senderAddress => 2
  | .receiverAddress => 2
  | .filename => 1
  | .displayMode => 1
  | .displaySpeed => 1
  | .pauseTime => 1
  | .showDateMask => 2
  | .startTime => 4
  | .stopTime => 4
  | .align => 1
  | .prep => 3

/-- `x[i]`: the read of a register, whole (R16, R93). `prep` is hardwired to `30 30 30` (R31). -/
def readReg (r : Reg) (s : Session) : Bytes :=
  match r with
  | .senderAddress => s.senderAddress
  | .receiverAddress => s.receiverAddress
  | .filename => s.filename
  | .displayMode => s.displayMode
  | .displaySpeed => s.displaySpeed
  | .pauseTime => s.pauseTime
  | .showDateMask => s.showDateMask
  | .startTime => s.startTime
  | .stopTime => s.stopTime
  | .align => s.align
  | .prep => [0x30#8, 0x30#8, 0x30#8]

/-- `x[i] <- v`: the write of a register, whole and unchecked (R16, R160). `prep` is read-only (R31). -/
def writeReg (r : Reg) (v : Bytes) (s : Session) : Session :=
  match r with
  | .senderAddress => { s with senderAddress := v }
  | .receiverAddress => { s with receiverAddress := v }
  | .filename => { s with filename := v }
  | .displayMode => { s with displayMode := v }
  | .displaySpeed => { s with displaySpeed := v }
  | .pauseTime => { s with pauseTime := v }
  | .showDateMask => { s with showDateMask := v }
  | .startTime => { s with startTime := v }
  | .stopTime => { s with stopTime := v }
  | .align => { s with align := v }
  | .prep => s

/-! ### Responses and errors (R16, R18, R187) -/

/-- `respond v`: the operation ends with this response. -/
def State.respond (r : Response) (s : State) : State := { s with responses := s.responses ++ [r] }

/-- `raise E(info)`: the operation ends with the error as its response and has no other effect (R187). There is nothing to
return from: the next request is taken as if the failed one had not been made (R189). -/
def State.raise (e : Error) (s : State) : State := s.respond (.error e)

/-- The number of an error kind (R180, D23). -/
def Error.number : Error → Nat
  | .malformedField _ _ _ => 1
  | .unrepresentableChecksum _ => 2
  | .unknownOption _ _ => 3

/-! ### The length check (R181, R182, R188) -/

/-- The nominal width of a fixed-width field (R181). -/
def Field.width : Field → Nat
  | .senderAddress => 2
  | .receiverAddress => 2
  | .filename => 1
  | .displayMode => 1
  | .displaySpeed => 1
  | .pauseTime => 1
  | .showDateMask => 2
  | .startTime => 4
  | .stopTime => 4
  | .align => 1
  | .variableCode => 1
  | .varAttr => 1
  | .gfxAttr => 5
  | .subcommand => 1
  | .clock => 15
  | .password => 6
  | .deviceNumber => 2
  | .windows => 40
  | .sfDisplayMode => 1
  | .cueVoice => 1
  | .passwordMode => 1
  | .brightness => 1

/-- `check_len(field, v, w)` of R182, with `w` the field's nominal width: the error it raises, if any. -/
def checkLen (mode : Validate) (f : Field) (v : Bytes) : Option Error :=
  if mode = .enforce ∧ v.length ≠ f.width then some (.malformedField f f.width v.length) else none

/-- A run of `check_len` lines: the first error in their order (R188). -/
def checkAll (mode : Validate) : List (Field × Bytes) → Option Error
  | [] => none
  | (f, v) :: rest =>
    match checkLen mode f v with
    | some e => some e
    | none => checkAll mode rest

/-! ### Building frames -/

/-- `BUILD_FRAME` of R114: the two addresses read once, checked in order, and the frame around the body. -/
def State.buildFrame (bytes : Bytes) (s : State) : State :=
  match checkAll s.config.validate
      [(.senderAddress, readReg .senderAddress s.session), (.receiverAddress, readReg .receiverAddress s.session)] with
  | some e => s.raise e
  | none => s.respond (.frame (frameOf (readReg .senderAddress s.session) (readReg .receiverAddress s.session) bytes))

/-- What every encoder does (R120): check its own fixed-width operands in body order, then build the frame of its body. -/
def State.encodeBody (operands : List (Field × Bytes)) (bytes : Bytes) (s : State) : State :=
  match checkAll s.config.validate operands with
  | some e => s.raise e
  | none => s.buildFrame bytes

/-- `WR_TEXT` of R121; `prep` is the hardwired register, not an operand. -/
def State.writeText
    (filename displayMode displaySpeed pauseTime showDateMask startTime stopTime align textData : Bytes) (s : State) :
    State :=
  s.encodeBody
    [(.filename, filename), (.displayMode, displayMode), (.displaySpeed, displaySpeed), (.pauseTime, pauseTime),
     (.showDateMask, showDateMask), (.startTime, startTime), (.stopTime, stopTime), (.align, align)]
    (bodyText filename displayMode displaySpeed pauseTime showDateMask startTime stopTime (readReg .prep s.session) align
      textData)

/-- `WR_SPECIAL` of R127. -/
def State.writeSpecial (subcommand payload : Bytes) (s : State) : State :=
  s.encodeBody [(.subcommand, subcommand)] (bodyWriteSpecial subcommand payload)

/-- What every special-function operation with a payload does (R140): check the payload's length, then run `WR_SPECIAL`
with its fixed subcommand. -/
def State.specialFunction (f : Field) (subcommand : Byte) (payload : Bytes) (s : State) : State :=
  match checkLen s.config.validate f payload with
  | some e => s.raise e
  | none => s.writeSpecial [subcommand] payload

/-- What every setter does (R160): store the value whole in its register and respond `Ok`. -/
def State.configure (r : Reg) (v : Bytes) (s : State) : State :=
  { s with session := writeReg r v s.session }.respond .ok

/-! ### The queue of requests (R35, R62) -/

/-- A caller submits a request: it arrives behind those already waiting. -/
def State.submit (request : Bytes) (s : State) : State := { s with pending := s.pending ++ [request] }

/-- The next request in arrival order, and the state with it taken. -/
def State.takeRequest (s : State) : Option (Bytes × State) :=
  match s.pending with
  | [] => none
  | request :: rest => some (request, { s with pending := rest })

/-- The state with a request at the front of the queue. -/
def State.withRequest (request : Bytes) (s : State) : State := { s with pending := request :: s.pending }

end Sys2Proof.Machine
end

