-- ==== Sys2Proof/Machine/Encoders.lean ====
section
/-! DEFINITION. The five command encoders and the session-level text operation. -/

namespace Sys2Proof.Machine

/-- `WR_TEXT` (R121). -/
def execWrText (filename displayMode displaySpeed pauseTime showDateMask startTime stopTime align textData : Bytes)
    (s : State) : Host.Outcome State Fault Refusal :=
  .next (s.writeText filename displayMode displaySpeed pauseTime showDateMask startTime stopTime align textData)

/-- `WR_VAR` (R123). -/
def execWrVar (variableCode varAttr data : Bytes) (s : State) : Host.Outcome State Fault Refusal :=
  .next (s.encodeBody [(.variableCode, variableCode), (.varAttr, varAttr)] (bodyVar variableCode varAttr data))

/-- `WR_GFX` (R125); it does not read the session's `filename`. -/
def execWrGfx (filename gfxAttr pixelData : Bytes) (s : State) : Host.Outcome State Fault Refusal :=
  .next (s.encodeBody [(.filename, filename), (.gfxAttr, gfxAttr)] (bodyGfx filename gfxAttr pixelData))

/-- `WR_SPECIAL` (R127). -/
def execWrSpecial (subcommand payload : Bytes) (s : State) : Host.Outcome State Fault Refusal :=
  .next (s.writeSpecial subcommand payload)

/-- `RD_SPECIAL` (R129): it only builds the frame. -/
def execRdSpecial (subcommand payload : Bytes) (s : State) : Host.Outcome State Fault Refusal :=
  .next (s.encodeBody [(.subcommand, subcommand)] (bodyReadSpecial subcommand payload))

/-- `TEXT` (R130): `WR_TEXT` of a snapshot of `x[2]` to `x[9]`. -/
def execText (textData : Bytes) (s : State) : Host.Outcome State Fault Refusal :=
  .next (s.writeText (readReg .filename s.session) (readReg .displayMode s.session) (readReg .displaySpeed s.session)
    (readReg .pauseTime s.session) (readReg .showDateMask s.session) (readReg .startTime s.session)
    (readReg .stopTime s.session) (readReg .align s.session) textData)

end Sys2Proof.Machine
end

