-- ==== Sys2Proof/Machine/Flags.lean ====
section
/-! DEFINITION. Flag computations: none. The block has no status flags, condition codes or predicates, and an error is
part of the response of its operation and is not latched (R36). -/
end

