-- ==== Sys2Proof/Machine/FrameBuilder.lean ====
section
/-! DEFINITION. The operations of the Checksum Calculator and the Frame Builder. -/

namespace Sys2Proof.Machine

/-- `CHECKSUM data` (R112). -/
def execChecksum (data : Bytes) (s : State) : Host.Outcome State Fault Refusal := .next (s.respond (.cks (cks data)))

/-- `BUILD_FRAME body` (R114); the body is opaque. -/
def execBuildFrame (bytes : Bytes) (s : State) : Host.Outcome State Fault Refusal := .next (s.buildFrame bytes)

end Sys2Proof.Machine
end

