-- ==== Sys2Proof/Machine/Lookup.lean ====
section
/-! DEFINITION. The operation of the Code Tables component. -/

namespace Sys2Proof.Machine

/-- `LOOKUP table, name` (R101): the code, or `UnknownOption` in both `VALIDATE` modes. -/
def execLookup (table : TableId) (name : Name) (s : State) : Host.Outcome State Fault Refusal :=
  match memRead s.config.tables table name with
  | none => .next (s.raise (.unknownOption table name))
  | some c => .next (s.respond (.code c))

end Sys2Proof.Machine
end

