-- ==== Sys2Proof/Machine/SessionConfig.lean ====
section
/-! DEFINITION. The ten setters of the Sign Session (R160): each stores its operand whole and unchecked in its own
register and responds `Ok`. -/

namespace Sys2Proof.Machine

/-- `CFG_SENDER` (R161): `x[0] <- value`. -/
def execCfgSender (value : Bytes) (s : State) : Host.Outcome State Fault Refusal := .next (s.configure .senderAddress value)

/-- `CFG_RECEIVER` (R162): `x[1] <- value`. -/
def execCfgReceiver (value : Bytes) (s : State) : Host.Outcome State Fault Refusal := .next (s.configure .receiverAddress value)

/-- `CFG_FILENAME` (R163): `x[2] <- value`. -/
def execCfgFilename (value : Bytes) (s : State) : Host.Outcome State Fault Refusal := .next (s.configure .filename value)

/-- `CFG_MODE` (R164): `x[3] <- value`. -/
def execCfgMode (value : Bytes) (s : State) : Host.Outcome State Fault Refusal := .next (s.configure .displayMode value)

/-- `CFG_SPEED` (R165): `x[4] <- value`. -/
def execCfgSpeed (value : Bytes) (s : State) : Host.Outcome State Fault Refusal := .next (s.configure .displaySpeed value)

/-- `CFG_PAUSE` (R166): `x[5] <- value`. -/
def execCfgPause (value : Bytes) (s : State) : Host.Outcome State Fault Refusal := .next (s.configure .pauseTime value)

/-- `CFG_DATEMASK` (R167): `x[6] <- value`. -/
def execCfgDatemask (value : Bytes) (s : State) : Host.Outcome State Fault Refusal := .next (s.configure .showDateMask value)

/-- `CFG_START` (R168): `x[7] <- value`. -/
def execCfgStart (value : Bytes) (s : State) : Host.Outcome State Fault Refusal := .next (s.configure .startTime value)

/-- `CFG_STOP` (R169): `x[8] <- value`. -/
def execCfgStop (value : Bytes) (s : State) : Host.Outcome State Fault Refusal := .next (s.configure .stopTime value)

/-- `CFG_ALIGN` (R170): `x[9] <- value`. -/
def execCfgAlign (value : Bytes) (s : State) : Host.Outcome State Fault Refusal := .next (s.configure .align value)

end Sys2Proof.Machine
end

