-- ==== Sys2Proof/Machine/SpecialFunctions.lean ====
section
/-! DEFINITION. The eleven special-function operations (R140); their subcommands are R78's. -/

namespace Sys2Proof.Machine

/-- `SF_CLEAR` (R141), subcommand `L`, no payload. -/
def execSfClear (s : State) : Host.Outcome State Fault Refusal := .next (s.writeSpecial [0x4C#8] [])

/-- `SF_RESET` (R142), subcommand `B`, no payload; it does not reset the block (R214). -/
def execSfReset (s : State) : Host.Outcome State Fault Refusal := .next (s.writeSpecial [0x42#8] [])

/-- `SF_CLOCK` (R143), subcommand `A`. -/
def execSfClock (payload : Bytes) (s : State) : Host.Outcome State Fault Refusal :=
  .next (s.specialFunction .clock 0x41#8 payload)

/-- `SF_CLOCKSYNC` (R144): `SF_CLOCK` of the formatted time. A record outside the bounds is not a request. -/
def execSfClocksync (now : Now) (s : State) : Host.Outcome State Fault Refusal :=
  if now.inBounds then .next (s.specialFunction .clock 0x41#8 (fmtNow now)) else .refused (.timeOutOfRange now)

/-- `SF_PASSWORD` (R145), subcommand `C`. -/
def execSfPassword (payload : Bytes) (s : State) : Host.Outcome State Fault Refusal :=
  .next (s.specialFunction .password 0x43#8 payload)

/-- `SF_DEVNUM` (R146), subcommand `D`; `receiver_address` is not changed (R225). -/
def execSfDevnum (payload : Bytes) (s : State) : Host.Outcome State Fault Refusal :=
  .next (s.specialFunction .deviceNumber 0x44#8 payload)

/-- `SF_WINDOWS` (R147), subcommand `E`. -/
def execSfWindows (payload : Bytes) (s : State) : Host.Outcome State Fault Refusal :=
  .next (s.specialFunction .windows 0x45#8 payload)

/-- `SF_DISPMODE` (R148), subcommand `F`; the payload is the operand, and the session's `display_mode` is not touched (C2). -/
def execSfDispmode (payload : Bytes) (s : State) : Host.Outcome State Fault Refusal :=
  .next (s.specialFunction .sfDisplayMode 0x46#8 payload)

/-- `SF_CUEVOICE` (R149), subcommand `J`. -/
def execSfCuevoice (payload : Bytes) (s : State) : Host.Outcome State Fault Refusal :=
  .next (s.specialFunction .cueVoice 0x4A#8 payload)

/-- `SF_PWMODE` (R150), subcommand `K`. -/
def execSfPwmode (payload : Bytes) (s : State) : Host.Outcome State Fault Refusal :=
  .next (s.specialFunction .passwordMode 0x4B#8 payload)

/-- `SF_BRIGHT` (R151), subcommand `P`. -/
def execSfBright (payload : Bytes) (s : State) : Host.Outcome State Fault Refusal :=
  .next (s.specialFunction .brightness 0x50#8 payload)

end Sys2Proof.Machine
end

