-- ==== Sys2Proof/Machine/Dispatch.lean ====
section
/-! DEFINITION. The dispatch of the operations to their meanings. -/

namespace Sys2Proof.Machine

def exec (i : Instr) (s : State) : Host.Outcome State Fault Refusal :=
  match i with
  | .lookup table name => Sys2Proof.Machine.execLookup table name s
  | .checksum data => Sys2Proof.Machine.execChecksum data s
  | .buildFrame bytes => Sys2Proof.Machine.execBuildFrame bytes s
  | .wrText fn dm ds pt md st sp al td => Sys2Proof.Machine.execWrText fn dm ds pt md st sp al td s
  | .wrVar code attr data => Sys2Proof.Machine.execWrVar code attr data s
  | .wrGfx fn attr data => Sys2Proof.Machine.execWrGfx fn attr data s
  | .wrSpecial sub payload => Sys2Proof.Machine.execWrSpecial sub payload s
  | .rdSpecial sub payload => Sys2Proof.Machine.execRdSpecial sub payload s
  | .text td => Sys2Proof.Machine.execText td s
  | .sfClear => Sys2Proof.Machine.execSfClear s
  | .sfReset => Sys2Proof.Machine.execSfReset s
  | .sfClock payload => Sys2Proof.Machine.execSfClock payload s
  | .sfClocksync now => Sys2Proof.Machine.execSfClocksync now s
  | .sfPassword payload => Sys2Proof.Machine.execSfPassword payload s
  | .sfDevnum payload => Sys2Proof.Machine.execSfDevnum payload s
  | .sfWindows payload => Sys2Proof.Machine.execSfWindows payload s
  | .sfDispmode payload => Sys2Proof.Machine.execSfDispmode payload s
  | .sfCuevoice payload => Sys2Proof.Machine.execSfCuevoice payload s
  | .sfPwmode payload => Sys2Proof.Machine.execSfPwmode payload s
  | .sfBright payload => Sys2Proof.Machine.execSfBright payload s
  | .cfgSender value => Sys2Proof.Machine.execCfgSender value s
  | .cfgReceiver value => Sys2Proof.Machine.execCfgReceiver value s
  | .cfgFilename value => Sys2Proof.Machine.execCfgFilename value s
  | .cfgMode value => Sys2Proof.Machine.execCfgMode value s
  | .cfgSpeed value => Sys2Proof.Machine.execCfgSpeed value s
  | .cfgPause value => Sys2Proof.Machine.execCfgPause value s
  | .cfgDatemask value => Sys2Proof.Machine.execCfgDatemask value s
  | .cfgStart value => Sys2Proof.Machine.execCfgStart value s
  | .cfgStop value => Sys2Proof.Machine.execCfgStop value s
  | .cfgAlign value => Sys2Proof.Machine.execCfgAlign value s

end Sys2Proof.Machine
end

