-- ==== Sys2Proof/Machine/Step.lean ====
section
/-! DEFINITION. One step of the machine: the next request in arrival order, run from start to end (R35, R62). -/

namespace Sys2Proof.Machine

/-- With no request waiting the block is idle and unchanged (R199). Otherwise the first request is taken and decoded; a
request runs (`exec`), and bytes that are no request are refused at the boundary (R88). -/
def step (s : State) : Host.Outcome State Fault Refusal :=
  match s.takeRequest with
  | none => .next s
  | some (request, s') =>
    match decodeRequest request with
    | .ok i => exec i s'
    | .error why => .refused (.invalidRequest why)

/-- `s` with a table word's request at the front of the queue, from which `step` takes its next request (log 9). -/
def State.withFetchWord (s : State) (nbits w : Nat) : State := s.withRequest (tableRequest nbits w)

end Sys2Proof.Machine
end

