-- ==== Sys2Proof/Safety.lean ====
section
/-! DEFINITION. The terms in which claims are made: what an operation answers, the fixed-width fields of a request, what
a sound response and a safe state are, and a run over a queue of requests. These read the spec's rules directly and do
not use the model's operations, but for `cks`, whose value claims of their own fix. -/

namespace Sys2Proof.Safety

open Sys2Proof.Machine

/-! ### What an operation answers -/

/-- The operation ends with this response and changes nothing else (the frame of every operation but a setter). -/
def Answers (i : Instr) (s : State) (r : Response) : Prop :=
  exec i s = .next { s with responses := s.responses ++ [r] }

/-- The operation ends with this response, whatever else it does. -/
def Responds (i : Instr) (s : State) (r : Response) : Prop :=
  ∃ t, exec i s = .next t ∧ t.responses = s.responses ++ [r]

/-! ### Fixed-width fields (R181, R191) -/

/-- A `check_len` line of R182: a field, its nominal width and the value given. -/
structure Check where
  field : Field
  width : Nat
  value : Bytes
  deriving DecidableEq, Repr

/-- The value has the nominal width. -/
abbrev Check.Nominal (c : Check) : Prop := c.value.length = c.width

/-- The two checks of the Frame Builder, in their order (R114, R188). -/
def addressChecks (s : Session) : List Check :=
  [⟨.senderAddress, 2, s.senderAddress⟩, ⟨.receiverAddress, 2, s.receiverAddress⟩]

/-- The eight checks of `WR_TEXT` in body order (R121). -/
def textChecks (fn dm ds pt md st sp al : Bytes) : List Check :=
  [⟨.filename, 1, fn⟩, ⟨.displayMode, 1, dm⟩, ⟨.displaySpeed, 1, ds⟩, ⟨.pauseTime, 1, pt⟩, ⟨.showDateMask, 2, md⟩,
   ⟨.startTime, 4, st⟩, ⟨.stopTime, 4, sp⟩, ⟨.align, 1, al⟩]

/-- R191's table: the operation's own fixed-width fields in the order of its checks; `none` for an operation that builds
no frame. -/
def ownChecks : Instr → Session → Option (List Check)
  | .lookup _ _, _ => none
  | .checksum _, _ => none
  | .buildFrame _, _ => some []
  | .wrText fn dm ds pt md st sp al _, _ => some (textChecks fn dm ds pt md st sp al)
  | .wrVar v a _, _ => some [⟨.variableCode, 1, v⟩, ⟨.varAttr, 1, a⟩]
  | .wrGfx fn a _, _ => some [⟨.filename, 1, fn⟩, ⟨.gfxAttr, 5, a⟩]
  | .wrSpecial sub _, _ => some [⟨.subcommand, 1, sub⟩]
  | .rdSpecial sub _, _ => some [⟨.subcommand, 1, sub⟩]
  | .text _, x => some (textChecks x.filename x.displayMode x.displaySpeed x.pauseTime x.showDateMask x.startTime
      x.stopTime x.align)
  | .sfClear, _ => some []
  | .sfReset, _ => some []
  | .sfClock p, _ => some [⟨.clock, 15, p⟩]
  | .sfClocksync _, _ => some []
  | .sfPassword p, _ => some [⟨.password, 6, p⟩]
  | .sfDevnum p, _ => some [⟨.deviceNumber, 2, p⟩]
  | .sfWindows p, _ => some [⟨.windows, 40, p⟩]
  | .sfDispmode p, _ => some [⟨.sfDisplayMode, 1, p⟩]
  | .sfCuevoice p, _ => some [⟨.cueVoice, 1, p⟩]
  | .sfPwmode p, _ => some [⟨.passwordMode, 1, p⟩]
  | .sfBright p, _ => some [⟨.brightness, 1, p⟩]
  | .cfgSender _, _ => none
  | .cfgReceiver _, _ => none
  | .cfgFilename _, _ => none
  | .cfgMode _, _ => none
  | .cfgSpeed _, _ => none
  | .cfgPause _, _ => none
  | .cfgDatemask _, _ => none
  | .cfgStart _, _ => none
  | .cfgStop _, _ => none
  | .cfgAlign _, _ => none

/-- All the checks of a frame-building operation: its own, then the two addresses (R188). -/
def allChecks (i : Instr) (x : Session) : Option (List Check) := (ownChecks i x).map (· ++ addressChecks x)

/-- The length of the body a frame-building operation builds, from the lengths of its parts (R73 to R77). -/
def bodyLength : Instr → Session → Option Nat
  | .lookup _ _, _ => none
  | .checksum _, _ => none
  | .buildFrame b, _ => some b.length
  | .wrText fn dm ds pt md st sp al td, _ =>
    some (6 + fn.length + dm.length + ds.length + pt.length + md.length + st.length + sp.length + al.length + td.length)
  | .wrVar v a d, _ => some (3 + v.length + a.length + d.length)
  | .wrGfx fn a p, _ => some (3 + fn.length + a.length + p.length)
  | .wrSpecial sub p, _ => some (3 + sub.length + p.length)
  | .rdSpecial sub p, _ => some (3 + sub.length + p.length)
  | .text td, x =>
    some (6 + x.filename.length + x.displayMode.length + x.displaySpeed.length + x.pauseTime.length +
      x.showDateMask.length + x.startTime.length + x.stopTime.length + x.align.length + td.length)
  | .sfClear, _ => some 4
  | .sfReset, _ => some 4
  | .sfClock p, _ => some (4 + p.length)
  | .sfClocksync _, _ => some 19
  | .sfPassword p, _ => some (4 + p.length)
  | .sfDevnum p, _ => some (4 + p.length)
  | .sfWindows p, _ => some (4 + p.length)
  | .sfDispmode p, _ => some (4 + p.length)
  | .sfCuevoice p, _ => some (4 + p.length)
  | .sfPwmode p, _ => some (4 + p.length)
  | .sfBright p, _ => some (4 + p.length)
  | .cfgSender _, _ => none
  | .cfgReceiver _, _ => none
  | .cfgFilename _, _ => none
  | .cfgMode _, _ => none
  | .cfgSpeed _, _ => none
  | .cfgPause _, _ => none
  | .cfgDatemask _, _ => none
  | .cfgStart _, _ => none
  | .cfgStop _, _ => none
  | .cfgAlign _, _ => none

/-- R72's table: the command code of the body an encoder builds; `none` for an operation that builds no body of its
own. -/
def commandCode : Instr → Option Byte
  | .lookup _ _ => none
  | .checksum _ => none
  | .buildFrame _ => none
  | .wrText _ _ _ _ _ _ _ _ _ => some 0x41#8
  | .wrVar _ _ _ => some 0x43#8
  | .wrGfx _ _ _ => some 0x45#8
  | .wrSpecial _ _ => some 0x57#8
  | .rdSpecial _ _ => some 0x52#8
  | .text _ => some 0x41#8
  | .sfClear => some 0x57#8
  | .sfReset => some 0x57#8
  | .sfClock _ => some 0x57#8
  | .sfClocksync _ => some 0x57#8
  | .sfPassword _ => some 0x57#8
  | .sfDevnum _ => some 0x57#8
  | .sfWindows _ => some 0x57#8
  | .sfDispmode _ => some 0x57#8
  | .sfCuevoice _ => some 0x57#8
  | .sfPwmode _ => some 0x57#8
  | .sfBright _ => some 0x57#8
  | .cfgSender _ => none
  | .cfgReceiver _ => none
  | .cfgFilename _ => none
  | .cfgMode _ => none
  | .cfgSpeed _ => none
  | .cfgPause _ => none
  | .cfgDatemask _ => none
  | .cfgStart _ => none
  | .cfgStop _ => none
  | .cfgAlign _ => none

/-- The one register a setter writes, and the value it is given (R160, R33). -/
def setting : Instr → Option (Reg × Bytes)
  | .lookup _ _ => none
  | .checksum _ => none
  | .buildFrame _ => none
  | .wrText _ _ _ _ _ _ _ _ _ => none
  | .wrVar _ _ _ => none
  | .wrGfx _ _ _ => none
  | .wrSpecial _ _ => none
  | .rdSpecial _ _ => none
  | .text _ => none
  | .sfClear => none
  | .sfReset => none
  | .sfClock _ => none
  | .sfClocksync _ => none
  | .sfPassword _ => none
  | .sfDevnum _ => none
  | .sfWindows _ => none
  | .sfDispmode _ => none
  | .sfCuevoice _ => none
  | .sfPwmode _ => none
  | .sfBright _ => none
  | .cfgSender v => some (.senderAddress, v)
  | .cfgReceiver v => some (.receiverAddress, v)
  | .cfgFilename v => some (.filename, v)
  | .cfgMode v => some (.displayMode, v)
  | .cfgSpeed v => some (.displaySpeed, v)
  | .cfgPause v => some (.pauseTime, v)
  | .cfgDatemask v => some (.showDateMask, v)
  | .cfgStart v => some (.startTime, v)
  | .cfgStop v => some (.stopTime, v)
  | .cfgAlign v => some (.align, v)

/-- The frame of R54 around a body, with the session's two addresses. -/
def framed (s : State) (body : Bytes) : Bytes :=
  [0x00#8, 0x00#8, 0x00#8, 0x00#8, 0x00#8, 0x01#8] ++ s.session.senderAddress ++ s.session.receiverAddress ++ body ++
  cks body ++ [0x04#8]

/-- What a frame-building operation with these checks and this body does in a state: under `BYPASS`, or when every checked
field has its nominal width, it answers the frame around the body; under `ENFORCE`, when some field has not, it answers
`MalformedField` of the first such field in the order of the checks, then sender, then receiver (R120, R182, R188).
Either way nothing else changes. Which of several malformed fields is reported is the spec's decision D5 (log 12); that a
body which sums past 0xFFFF is framed is its decision D1 (log 11). -/
def BuildsFrame (i : Instr) (s : State) (own : List Check) (body : Bytes) : Prop :=
  ((s.config.validate = .bypass ∨ ∀ c ∈ own ++ addressChecks s.session, c.Nominal) →
      Answers i s (.frame (framed s body))) ∧
  ∀ before c after, s.config.validate = .enforce → own ++ addressChecks s.session = before ++ c :: after →
      (∀ d ∈ before, d.Nominal) → ¬ c.Nominal →
      Answers i s (.error (.malformedField c.field c.width c.value.length))

/-! ### Reading numbers back from digits -/

/-- An uppercase hexadecimal digit, `30`–`39` or `41`–`46` (R110). -/
abbrev UpperHex (b : Byte) : Prop := (0x30 ≤ b.toNat ∧ b.toNat ≤ 0x39) ∨ (0x41 ≤ b.toNat ∧ b.toNat ≤ 0x46)

/-- The number that hexadecimal digits spell, most significant first. -/
def hexValue (digits : Bytes) : Nat :=
  digits.foldl (fun n b => 16 * n + (if b.toNat ≤ 0x39 then b.toNat - 0x30 else b.toNat - 0x41 + 10)) 0

/-- The number that decimal digits spell, most significant first. -/
def decValue (digits : Bytes) : Nat := digits.foldl (fun n b => 10 * n + (b.toNat - 0x30)) 0

/-- The sum of the unsigned byte values. -/
def byteSum (b : Bytes) : Nat := (b.map BitVec.toNat).sum

/-! ### Safe states -/

/-- A response that the block may give under a configuration: a frame is an envelope around some body, with two-byte
addresses under `ENFORCE`; a checksum is four uppercase hexadecimal digits; a code stands in a table; a malformed field is
reported under `ENFORCE` only, with its nominal width and another length found; an unknown option is a name that is no key
of the table; an unrepresentable checksum is never reported (R54, R110, R180 to R186). -/
def SoundResponse (c : Config) : Response → Prop
  | .frame f => ∃ a b body, f = [0x00#8, 0x00#8, 0x00#8, 0x00#8, 0x00#8, 0x01#8] ++ a ++ b ++ body ++ cks body ++ [0x04#8] ∧
      (c.validate = .enforce → a.length = 2 ∧ b.length = 2)
  | .cks k => k.length = 4 ∧ ∀ b ∈ k, UpperHex b
  | .code b => ∃ t n, (n, b) ∈ c.tables.table t
  | .ok => True
  | .error (.malformedField f w n) => c.validate = .enforce ∧ w = f.width ∧ n ≠ w
  | .error (.unrepresentableChecksum _) => False
  | .error (.unknownOption t n) => ¬ (c.tables.table t).HasKey n

/-- A safe state: the tables are a configuration of the block (R9), and every response so far is sound. -/
def Inv (s : State) : Prop := s.config.tables.Admissible ∧ ∀ r ∈ s.responses, SoundResponse s.config r

/-- Every register has its nominal width (R212). -/
abbrev NominalSession (x : Session) : Prop :=
  x.senderAddress.length = 2 ∧ x.receiverAddress.length = 2 ∧ x.filename.length = 1 ∧ x.displayMode.length = 1 ∧
  x.displaySpeed.length = 1 ∧ x.pauseTime.length = 1 ∧ x.showDateMask.length = 2 ∧ x.startTime.length = 4 ∧
  x.stopTime.length = 4 ∧ x.align.length = 1

/-! ### Runs over a queue of requests (R35, R62, R228) -/

/-- The state after an operation; the state itself where the operation does not run. -/
def perform (i : Instr) (s : State) : State :=
  match exec i s with
  | .next t => t
  | .fault _ => s
  | .refused _ => s

/-- The state after a sequence of operations. -/
def performAll (is : List Instr) (s : State) : State := is.foldl (fun t i => perform i t) s

end Sys2Proof.Safety
end

