-- ==== Sys2Proof/Certificates/Slice0/Obligations.lean ====
section
/-! DEFINITION. The statements for the provers. `R<n>` are rules of spec/, `D<n>` its own decisions, "log <n>" is
notes/assumptions/<n>.md. Helper terms (`Answers`, `BuildsFrame`, `Check`, ...) are Sys2Proof/Safety.lean's. -/

open Sys2Proof Sys2Proof.Machine Sys2Proof.Safety

/-! ### Requests: encoding, decoding, and the step -/

/-- Words written out from the request layout (log 1, the model's choice; the selectors are R86's) decode to their
operations. A sanity statement. -/
def Obligations.SampleRequestsDecode : Prop :=
  decodeRequest [0x00#8, 0x00#8, 0x04#8, 0x61#8, 0x75#8, 0x74#8, 0x6F#8] = .ok (.lookup .mode nameAuto) ∧
  decodeRequest [0x10#8, 0x04#8, 0x02#8, 0x57#8, 0x4C#8, 0x03#8] = .ok (.checksum [0x02#8, 0x57#8, 0x4C#8, 0x03#8]) ∧
  decodeRequest [0x21#8, 0x01#8, 0x31#8, 0x01#8, 0x30#8, 0x02#8, 0x34#8, 0x32#8] =
    .ok (.wrVar [0x31#8] [0x30#8] [0x34#8, 0x32#8]) ∧
  decodeRequest [0x3A#8, 0x01#8, 0x35#8] = .ok (.sfBright [0x35#8]) ∧
  decodeRequest [0x33#8, 0xE8#8, 0x0F#8, 0x03#8, 0x0F#8, 0x09#8, 0x1E#8, 0x00#8, 0x05#8] =
    .ok (.sfClocksync ⟨2024, 3, 15, 9, 30, 0, 5⟩) ∧
  decodeRequest [0x41#8, 0x02#8, 0x31#8, 0x32#8] = .ok (.cfgReceiver [0x31#8, 0x32#8])

/-- Decoding an encoded well-formed request gives it back, with every operand at every value and length, and leaves the
bytes after it. The layout is the model's choice (log 1, D8). -/
def Obligations.DecodeReadsBackEveryEncodedRequest : Prop :=
  ∀ i : Instr, i.wellFormed = true →
    decodeRequest (encode i) = .ok i ∧ ∀ rest, decode (encode i ++ rest) = .ok (i, rest)

/-- Bytes that decode to a request are that request's encoding and the request is well-formed: every request has exactly
one spelling. The layout is the model's choice (log 1, D8). -/
def Obligations.EveryAcceptedRequestIsItsEncoding : Prop :=
  ∀ (w : Bytes) (i : Instr), decodeRequest w = .ok i → i.wellFormed = true ∧ encode i = w

/-- The selectors of R86 are exactly the ones the decoder knows: with zero operand bytes each reads as an operation of
that selector, and any other selector is refused by name whatever follows it (R86, R88; the numbers are the spec's own,
D8). That zero bytes read as operands rests on the model's choice of a request's bytes (log 1; no source gives them, N15)
and of the bytes of a table word (log 9). -/
def Obligations.KnownSelectorsAreThoseOfTheOperationMap : Prop :=
  ∀ b : Byte,
    (b.toNat ∈ [0x00, 0x10, 0x11, 0x20, 0x21, 0x22, 0x23, 0x24, 0x25, 0x30, 0x31, 0x32, 0x33, 0x34, 0x35, 0x36, 0x37,
        0x38, 0x39, 0x3A, 0x40, 0x41, 0x42, 0x43, 0x44, 0x45, 0x46, 0x47, 0x48, 0x49] →
      ∃ i, decodeTableWord 8 b.toNat = some i ∧ i.selector = b) ∧
    (b.toNat ∉ [0x00, 0x10, 0x11, 0x20, 0x21, 0x22, 0x23, 0x24, 0x25, 0x30, 0x31, 0x32, 0x33, 0x34, 0x35, 0x36, 0x37,
        0x38, 0x39, 0x3A, 0x40, 0x41, 0x42, 0x43, 0x44, 0x45, 0x46, 0x47, 0x48, 0x49] →
      ∀ w, decodeRequest (b :: w) = .error (.unknownSelector b))

/-- A step takes the first request that arrived and runs the operation it decodes to, in the state with that request
taken (R35, R62; the queue is the model's, log 3). -/
def Obligations.StepRunsTheFirstPendingRequest : Prop :=
  ∀ (s : State) (request : Bytes) (rest : List Bytes) (i : Instr),
    s.pending = request :: rest → decodeRequest request = .ok i → step s = exec i { s with pending := rest }

/-- Bytes that are no request are refused at the boundary, with the decoder's reason, and the block is not entered (R88;
the queue is the model's, log 3). -/
def Obligations.StepRefusesBytesThatAreNoRequest : Prop :=
  ∀ (s : State) (request : Bytes) (rest : List Bytes) (why : Reject),
    s.pending = request :: rest → decodeRequest request = .error why → step s = .refused (.invalidRequest why)

/-- R199: between requests the block is idle and holds its state. -/
def Obligations.IdleBlockHoldsItsState : Prop :=
  ∀ s : State, s.pending = [] → step s = .next s

/-! ### Code tables -/

/-- R101: on an admissible configuration `LOOKUP` of a key answers the code the table holds for it, in both modes, and
changes nothing else. -/
def Obligations.LookupOfAKeyAnswersItsCode : Prop :=
  ∀ (s : State) (t : TableId) (n : Name) (c : Byte), s.config.tables.Admissible → (n, c) ∈ s.config.tables.table t →
    Answers (.lookup t n) s (.code c)

/-- R101, R185: `LOOKUP` of a name that is no key answers `UnknownOption`, in both modes, and changes nothing else. -/
def Obligations.LookupOfAnUnknownNameIsAnError : Prop :=
  ∀ (s : State) (t : TableId) (n : Name), ¬ (s.config.tables.table t).HasKey n →
    Answers (.lookup t n) s (.error (.unknownOption t n))

/-- R100, read through the operation: two names of one table that answer the same code are the same name. -/
def Obligations.LookupIsInjective : Prop :=
  ∀ (s : State) (t : TableId) (n m : Name) (c : Byte), s.config.tables.Admissible →
    Responds (.lookup t n) s (.code c) → Responds (.lookup t m) s (.code c) → n = m

/-! ### Checksum -/

/-- R110: for every byte string the checksum is four uppercase hexadecimal digits; as long as the sum fits in four digits
they spell the sum. -/
def Obligations.ChecksumIsFourUppercaseHexDigits : Prop :=
  ∀ (s : State) (b : Bytes), ∃ c, Answers (.checksum b) s (.cks c) ∧ c.length = 4 ∧ (∀ d ∈ c, UpperHex d) ∧
    (byteSum b ≤ 0xFFFF → hexValue c = byteSum b)

/-- R111 with its reduction, which is the spec's own choice (D1, log 11): the four digits spell the byte sum modulo
65536. -/
def Obligations.ChecksumSpellsTheSumModulo65536 : Prop :=
  ∀ (s : State) (b : Bytes), ∃ c, Answers (.checksum b) s (.cks c) ∧ hexValue c = byteSum b % 65536

/-- R111: the checksum does not depend on the order of the bytes. -/
def Obligations.ChecksumIgnoresByteOrder : Prop :=
  ∀ (s : State) (b1 b2 : Bytes) (c : Bytes), b1.Perm b2 → Answers (.checksum b1) s (.cks c) →
    Answers (.checksum b2) s (.cks c)

/-- R113: the sum is at most 255 for each byte, so no reduction takes place up to 257 bytes; 258 bytes `FF` wrap (to
`00FE`, by D1). -/
def Obligations.ChecksumDoesNotWrapUpTo257Bytes : Prop :=
  (∀ (s : State) (b : Bytes), byteSum b ≤ 255 * b.length ∧
    (b.length ≤ 257 → ∃ c, Answers (.checksum b) s (.cks c) ∧ hexValue c = byteSum b)) ∧
  ∀ s : State, Answers (.checksum (List.replicate 258 0xFF#8)) s (.cks [0x30#8, 0x30#8, 0x46#8, 0x45#8])

/-! ### Frames -/

/-- R114: `BUILD_FRAME` wraps any body at all (D3, D17; the order of errors is D5's, log 12; the checksum of a body that sums
past 0xFFFF is D1's, log 11). -/
def Obligations.BuildFrameWrapsAnyBody : Prop :=
  ∀ (s : State) (b : Bytes), BuildsFrame (.buildFrame b) s [] b

/-- R59: laying down the seven parts of the frame at their offsets in ascending order gives the one concatenation. -/
def Obligations.WritingTheSevenPartsIsTheConcatenation : Prop :=
  ∀ a b body : Bytes, frameByWrites a b body =
    [0x00#8, 0x00#8, 0x00#8, 0x00#8, 0x00#8] ++ [0x01#8] ++ a ++ b ++ body ++ cks body ++ [0x04#8]

/-- R54: every frame that any operation answers has the layout of the frame map, at every offset, for addresses of any
length. -/
def Obligations.EveryFrameHasTheFrameMap : Prop :=
  ∀ (i : Instr) (s : State) (f : Bytes), Responds i s (.frame f) →
    ∃ body : Bytes,
      f.length = 11 + s.session.senderAddress.length + s.session.receiverAddress.length + body.length ∧
      f.take 6 = [0x00#8, 0x00#8, 0x00#8, 0x00#8, 0x00#8, 0x01#8] ∧
      (f.drop 6).take s.session.senderAddress.length = s.session.senderAddress ∧
      (f.drop (6 + s.session.senderAddress.length)).take s.session.receiverAddress.length = s.session.receiverAddress ∧
      (f.drop (6 + s.session.senderAddress.length + s.session.receiverAddress.length)).take body.length = body ∧
      (f.drop (6 + s.session.senderAddress.length + s.session.receiverAddress.length + body.length)).take 4 = cks body ∧
      f.drop (10 + s.session.senderAddress.length + s.session.receiverAddress.length + body.length) = [0x04#8]

/-- R57: with two-byte addresses the parts of a frame are found from its end, and its checksum is that of the body so
found. -/
def Obligations.FramePartsAreFoundFromTheEnd : Prop :=
  ∀ (i : Instr) (s : State) (f : Bytes), Responds i s (.frame f) → s.session.senderAddress.length = 2 →
    s.session.receiverAddress.length = 2 →
      15 ≤ f.length ∧ f[f.length - 1]? = some 0x04#8 ∧
      (f.drop (f.length - 5)).take 4 = cks ((f.drop 10).take (f.length - 15)) ∧
      (commandCode i ≠ none → f[10]? = some 0x02#8 ∧ f[f.length - 6]? = some 0x03#8)

/-- R72, R55: with two-byte addresses the body of every operation that builds one begins with STX and its family's command
code and ends with ETX. -/
def Obligations.EveryBodyCarriesItsCommandCode : Prop :=
  ∀ (i : Instr) (s : State) (f : Bytes) (code : Byte), Responds i s (.frame f) →
    s.session.senderAddress.length = 2 → s.session.receiverAddress.length = 2 → commandCode i = some code →
      ∃ fields : Bytes, (f.drop 10).take (f.length - 15) = [0x02#8, code] ++ fields ++ [0x03#8]

/-- R115: the checksum covers the body only, STX to ETX: whatever the addresses, the same body gets the same four
checksum bytes, and they spell (as long as it fits in four digits) the sum of the body with its `02` and `03`, and of
nothing else. -/
def Obligations.ChecksumCoversTheBodyOnly : Prop :=
  ∀ (s1 s2 : State) (fields f1 f2 : Bytes),
    Responds (.buildFrame ([0x02#8] ++ fields ++ [0x03#8])) s1 (.frame f1) →
    Responds (.buildFrame ([0x02#8] ++ fields ++ [0x03#8])) s2 (.frame f2) →
      (f1.drop (f1.length - 5)).take 4 = (f2.drop (f2.length - 5)).take 4 ∧
      (5 + byteSum fields ≤ 0xFFFF → hexValue ((f1.drop (f1.length - 5)).take 4) = 5 + byteSum fields)

/-- R56 and R84, for addresses and operands of any length: the length of a frame is the sum of the lengths of its
parts. -/
def Obligations.FrameLengthIsTheSumOfItsParts : Prop :=
  ∀ (i : Instr) (s : State) (f : Bytes) (n : Nat), Responds i s (.frame f) → bodyLength i s.session = some n →
    f.length = 11 + s.session.senderAddress.length + s.session.receiverAddress.length + n

/-! ### Encoders -/

/-- R121: `WR_TEXT` (with the decisions of R120: D3, and D5, log 12, for the order of errors; long texts: D1, log 11). -/
def Obligations.WriteTextBuildsItsFrame : Prop :=
  ∀ (s : State) (fn dm ds pt md st sp al td : Bytes),
    BuildsFrame (.wrText fn dm ds pt md st sp al td) s (textChecks fn dm ds pt md st sp al)
      ([0x02#8, 0x41#8] ++ fn ++ dm ++ ds ++ pt ++ md ++ st ++ sp ++ [0x30#8, 0x30#8, 0x30#8] ++ al ++ td ++ [0x03#8])

/-- R130: `TEXT` is `WR_TEXT` of the registers as they stand when it runs, and writes none (D31; order of errors:
D5, log 12; long texts: D1, log 11). -/
def Obligations.TextBuildsTheFrameOfTheSession : Prop :=
  ∀ (s : State) (td : Bytes),
    BuildsFrame (.text td) s
      (textChecks s.session.filename s.session.displayMode s.session.displaySpeed s.session.pauseTime
        s.session.showDateMask s.session.startTime s.session.stopTime s.session.align)
      ([0x02#8, 0x41#8] ++ s.session.filename ++ s.session.displayMode ++ s.session.displaySpeed ++ s.session.pauseTime ++
        s.session.showDateMask ++ s.session.startTime ++ s.session.stopTime ++ [0x30#8, 0x30#8, 0x30#8] ++
        s.session.align ++ td ++ [0x03#8])

/-- R123: `WR_VAR`; no `FB` is emitted (D18, log 16; order of errors: D5, log 12; long data: D1, log 11). -/
def Obligations.WriteVariableBuildsItsFrame : Prop :=
  ∀ (s : State) (v a d : Bytes),
    BuildsFrame (.wrVar v a d) s [⟨.variableCode, 1, v⟩, ⟨.varAttr, 1, a⟩] ([0x02#8, 0x43#8] ++ v ++ a ++ d ++ [0x03#8])

/-- R125: `WR_GFX` takes its own filename and pixel data of any length (D21; order of errors: D5, log 12; long data: D1,
log 11). -/
def Obligations.WriteGraphicsBuildsItsFrame : Prop :=
  ∀ (s : State) (fn a p : Bytes),
    BuildsFrame (.wrGfx fn a p) s [⟨.filename, 1, fn⟩, ⟨.gfxAttr, 5, a⟩] ([0x02#8, 0x45#8] ++ fn ++ a ++ p ++ [0x03#8])

/-- R127, R129: `WR_SPECIAL` and `RD_SPECIAL` copy any subcommand and payload (D30; order of errors: D5, log 12; long payloads:
D1, log 11). -/
def Obligations.SpecialEncodersBuildTheirFrames : Prop :=
  ∀ (s : State) (sub p : Bytes),
    BuildsFrame (.wrSpecial sub p) s [⟨.subcommand, 1, sub⟩] ([0x02#8, 0x57#8] ++ sub ++ p ++ [0x03#8]) ∧
    BuildsFrame (.rdSpecial sub p) s [⟨.subcommand, 1, sub⟩] ([0x02#8, 0x52#8] ++ sub ++ p ++ [0x03#8])

/-- R73: the frame offsets of a Write-text frame with every field at its nominal width; the text data stands at offset 30
byte for byte, whatever its bytes are. -/
def Obligations.WriteTextFrameHasTheLayoutOfItsTable : Prop :=
  ∀ (s : State) (fn dm ds pt md st sp al td f : Bytes),
    (∀ c ∈ textChecks fn dm ds pt md st sp al ++ addressChecks s.session, c.Nominal) →
    Responds (.wrText fn dm ds pt md st sp al td) s (.frame f) →
      f.length = 36 + td.length ∧ (f.drop 10).take 2 = [0x02#8, 0x41#8] ∧ (f.drop 12).take 1 = fn ∧
      (f.drop 13).take 1 = dm ∧ (f.drop 14).take 1 = ds ∧ (f.drop 15).take 1 = pt ∧ (f.drop 16).take 2 = md ∧
      (f.drop 18).take 4 = st ∧ (f.drop 22).take 4 = sp ∧ (f.drop 26).take 3 = [0x30#8, 0x30#8, 0x30#8] ∧
      (f.drop 29).take 1 = al ∧ (f.drop 30).take td.length = td ∧ (f.drop (30 + td.length)).take 1 = [0x03#8]

/-- R75 to R77: the frame offsets of graphics and special frames with every field at its nominal width; pixel data and
payloads stand there byte for byte. -/
def Obligations.GraphicsAndSpecialFramesHaveTheirLayouts : Prop :=
  (∀ (s : State) (fn a p f : Bytes), fn.length = 1 → a.length = 5 → (∀ c ∈ addressChecks s.session, c.Nominal) →
    Responds (.wrGfx fn a p) s (.frame f) →
      f.length = 24 + p.length ∧ (f.drop 10).take 2 = [0x02#8, 0x45#8] ∧ (f.drop 12).take 1 = fn ∧
      (f.drop 13).take 5 = a ∧ (f.drop 18).take p.length = p ∧ (f.drop (18 + p.length)).take 1 = [0x03#8]) ∧
  ∀ (s : State) (sub p f g : Bytes), sub.length = 1 → (∀ c ∈ addressChecks s.session, c.Nominal) →
    Responds (.wrSpecial sub p) s (.frame f) → Responds (.rdSpecial sub p) s (.frame g) →
      f.length = 19 + p.length ∧ (f.drop 10).take 2 = [0x02#8, 0x57#8] ∧ (f.drop 12).take 1 = sub ∧
      (f.drop 13).take p.length = p ∧ (f.drop (13 + p.length)).take 1 = [0x03#8] ∧
      g.length = 19 + p.length ∧ (g.drop 10).take 2 = [0x02#8, 0x52#8] ∧ (g.drop 12).take 1 = sub ∧
      (g.drop 13).take p.length = p ∧ (g.drop (13 + p.length)).take 1 = [0x03#8]

/-! ### Special functions -/

/-- R141, R142: `SF_CLEAR` and `SF_RESET`, selectors 0x30 and 0x31 without operands, answer their constant frames, with the
checksums `00A8` and `009E`, and change no register; their only errors are the two address errors under `ENFORCE`. That the
sender's is reported first where both are malformed is the spec's decision D5 (log 12); that the one byte 0x30 or 0x31 is the
whole request is the model's choice of a request's bytes (log 1). -/
def Obligations.ClearAndResetBuildTheirConstantFrames : Prop :=
  decodeRequest [0x30#8] = .ok .sfClear ∧ decodeRequest [0x31#8] = .ok .sfReset ∧ ∀ s : State,
    ((s.config.validate = .bypass ∨ s.session.senderAddress.length = 2 ∧ s.session.receiverAddress.length = 2) →
      Answers .sfClear s (.frame ([0x00#8, 0x00#8, 0x00#8, 0x00#8, 0x00#8, 0x01#8] ++ s.session.senderAddress ++
        s.session.receiverAddress ++ [0x02#8, 0x57#8, 0x4C#8, 0x03#8, 0x30#8, 0x30#8, 0x41#8, 0x38#8, 0x04#8])) ∧
      Answers .sfReset s (.frame ([0x00#8, 0x00#8, 0x00#8, 0x00#8, 0x00#8, 0x01#8] ++ s.session.senderAddress ++
        s.session.receiverAddress ++ [0x02#8, 0x57#8, 0x42#8, 0x03#8, 0x30#8, 0x30#8, 0x39#8, 0x45#8, 0x04#8]))) ∧
    (s.config.validate = .enforce → s.session.senderAddress.length ≠ 2 →
      Answers .sfClear s (.error (.malformedField .senderAddress 2 s.session.senderAddress.length)) ∧
      Answers .sfReset s (.error (.malformedField .senderAddress 2 s.session.senderAddress.length))) ∧
    (s.config.validate = .enforce → s.session.senderAddress.length = 2 → s.session.receiverAddress.length ≠ 2 →
      Answers .sfClear s (.error (.malformedField .receiverAddress 2 s.session.receiverAddress.length)) ∧
      Answers .sfReset s (.error (.malformedField .receiverAddress 2 s.session.receiverAddress.length)))

/-- R143, R145 to R151: the eight special functions with a payload, each with its subcommand, its error field and its
nominal length; the payload is copied whatever its bytes are (the length check is D3; order of errors: D5, log 12;
payloads past 0xFFFF under `BYPASS`: D1, log 11). -/
def Obligations.PayloadFunctionsBuildTheirFrames : Prop :=
  ∀ (s : State) (p : Bytes),
    BuildsFrame (.sfClock p) s [⟨.clock, 15, p⟩] ([0x02#8, 0x57#8, 0x41#8] ++ p ++ [0x03#8]) ∧
    BuildsFrame (.sfPassword p) s [⟨.password, 6, p⟩] ([0x02#8, 0x57#8, 0x43#8] ++ p ++ [0x03#8]) ∧
    BuildsFrame (.sfDevnum p) s [⟨.deviceNumber, 2, p⟩] ([0x02#8, 0x57#8, 0x44#8] ++ p ++ [0x03#8]) ∧
    BuildsFrame (.sfWindows p) s [⟨.windows, 40, p⟩] ([0x02#8, 0x57#8, 0x45#8] ++ p ++ [0x03#8]) ∧
    BuildsFrame (.sfDispmode p) s [⟨.sfDisplayMode, 1, p⟩] ([0x02#8, 0x57#8, 0x46#8] ++ p ++ [0x03#8]) ∧
    BuildsFrame (.sfCuevoice p) s [⟨.cueVoice, 1, p⟩] ([0x02#8, 0x57#8, 0x4A#8] ++ p ++ [0x03#8]) ∧
    BuildsFrame (.sfPwmode p) s [⟨.passwordMode, 1, p⟩] ([0x02#8, 0x57#8, 0x4B#8] ++ p ++ [0x03#8]) ∧
    BuildsFrame (.sfBright p) s [⟨.brightness, 1, p⟩] ([0x02#8, 0x57#8, 0x50#8] ++ p ++ [0x03#8])

/-- R144, R79: for every time within its bounds `SF_CLOCKSYNC` builds the set-clock frame of fifteen digits that spell the
seven numbers, year first, weekday last (the source of the time is D13's). Under `ENFORCE` a malformed address is reported
instead, the sender's first where both are, which is the spec's decision D5 (log 12). -/
def Obligations.ClockSyncSpellsTheTime : Prop :=
  ∀ (s : State) (now : Now), now.inBounds = true →
    ∃ p : Bytes, BuildsFrame (.sfClocksync now) s [] ([0x02#8, 0x57#8, 0x41#8] ++ p ++ [0x03#8]) ∧
      p.length = 15 ∧ (∀ d ∈ p, 0x30 ≤ d.toNat ∧ d.toNat ≤ 0x39) ∧
      decValue (p.take 4) = now.year ∧ decValue ((p.drop 4).take 2) = now.month ∧
      decValue ((p.drop 6).take 2) = now.day ∧ decValue ((p.drop 8).take 2) = now.hour ∧
      decValue ((p.drop 10).take 2) = now.minute ∧ decValue ((p.drop 12).take 2) = now.second ∧
      decValue (p.drop 14) = now.weekday

/-- R144: a time record outside the bounds is not a request: no bytes decode to it, and its meaning refuses it by name. -/
def Obligations.TimeOutOfBoundsIsNoRequest : Prop :=
  ∀ now : Now, now.inBounds = false →
    (∀ s : State, exec (.sfClocksync now) s = .refused (.timeOutOfRange now)) ∧
    ∀ w : Bytes, decodeRequest w ≠ .ok (.sfClocksync now)

/-- R91: the pseudo-operations are their expansions: with a payload of nominal length (or under `BYPASS`, where there is no
length check) each special function does exactly what `WR_SPECIAL` of its subcommand does, and `TEXT` does what `WR_TEXT`
of the registers does. -/
def Obligations.SpecialFunctionsAreWriteSpecial : Prop :=
  ∀ s : State,
    exec .sfClear s = exec (.wrSpecial [0x4C#8] []) s ∧
    exec .sfReset s = exec (.wrSpecial [0x42#8] []) s ∧
    (∀ now : Now, now.inBounds = true → exec (.sfClocksync now) s = exec (.sfClock (fmtNow now)) s) ∧
    (∀ p : Bytes,
      (s.config.validate = .bypass ∨ p.length = 15 → exec (.sfClock p) s = exec (.wrSpecial [0x41#8] p) s) ∧
      (s.config.validate = .bypass ∨ p.length = 6 → exec (.sfPassword p) s = exec (.wrSpecial [0x43#8] p) s) ∧
      (s.config.validate = .bypass ∨ p.length = 2 → exec (.sfDevnum p) s = exec (.wrSpecial [0x44#8] p) s) ∧
      (s.config.validate = .bypass ∨ p.length = 40 → exec (.sfWindows p) s = exec (.wrSpecial [0x45#8] p) s) ∧
      (s.config.validate = .bypass ∨ p.length = 1 →
        exec (.sfDispmode p) s = exec (.wrSpecial [0x46#8] p) s ∧
        exec (.sfCuevoice p) s = exec (.wrSpecial [0x4A#8] p) s ∧
        exec (.sfPwmode p) s = exec (.wrSpecial [0x4B#8] p) s ∧
        exec (.sfBright p) s = exec (.wrSpecial [0x50#8] p) s)) ∧
    ∀ td : Bytes, exec (.text td) s = exec (.wrText s.session.filename s.session.displayMode s.session.displaySpeed
      s.session.pauseTime s.session.showDateMask s.session.startTime s.session.stopTime s.session.align td) s

/-! ### Setters -/

/-- R161 to R170: every setter stores its operand whole in its own register, answers `Ok`, and changes nothing else, in
both modes and for a value of any length (R160's unchecked store is D4, its response D27, the ten setters D20). -/
def Obligations.SettersStoreTheirOperand : Prop :=
  ∀ (s : State) (v : Bytes),
    exec (.cfgSender v) s =
      .next { s with session := { s.session with senderAddress := v }, responses := s.responses ++ [.ok] } ∧
    exec (.cfgReceiver v) s =
      .next { s with session := { s.session with receiverAddress := v }, responses := s.responses ++ [.ok] } ∧
    exec (.cfgFilename v) s =
      .next { s with session := { s.session with filename := v }, responses := s.responses ++ [.ok] } ∧
    exec (.cfgMode v) s =
      .next { s with session := { s.session with displayMode := v }, responses := s.responses ++ [.ok] } ∧
    exec (.cfgSpeed v) s =
      .next { s with session := { s.session with displaySpeed := v }, responses := s.responses ++ [.ok] } ∧
    exec (.cfgPause v) s =
      .next { s with session := { s.session with pauseTime := v }, responses := s.responses ++ [.ok] } ∧
    exec (.cfgDatemask v) s =
      .next { s with session := { s.session with showDateMask := v }, responses := s.responses ++ [.ok] } ∧
    exec (.cfgStart v) s =
      .next { s with session := { s.session with startTime := v }, responses := s.responses ++ [.ok] } ∧
    exec (.cfgStop v) s =
      .next { s with session := { s.session with stopTime := v }, responses := s.responses ++ [.ok] } ∧
    exec (.cfgAlign v) s =
      .next { s with session := { s.session with align := v }, responses := s.responses ++ [.ok] }

/-- R220: configure-then-encode is not atomic. A receiver set by one caller and set again by another before the first
caller's `SF_CLEAR` sends the frame to the second receiver (both of two bytes; `v` first, then `w`). -/
def Obligations.InterveningSetterRedirectsTheFrame : Prop :=
  ∀ (s : State) (v w : Bytes), s.session.senderAddress.length = 2 → w.length = 2 →
    (performAll [.cfgReceiver v, .cfgReceiver w, .sfClear] s).responses = s.responses ++ [.ok, .ok,
      .frame ([0x00#8, 0x00#8, 0x00#8, 0x00#8, 0x00#8, 0x01#8] ++ s.session.senderAddress ++ w ++
        [0x02#8, 0x57#8, 0x4C#8, 0x03#8, 0x30#8, 0x30#8, 0x41#8, 0x38#8, 0x04#8])]

/-! ### The whole machine -/

/-- R18, R227: every request ends with exactly one response; no operation touches the configuration or the requests that
wait behind it. -/
def Obligations.EveryRequestEndsWithOneResponse : Prop :=
  ∀ (i : Instr) (s : State), i.wellFormed = true →
    ∃ r t, exec i s = .next t ∧ t.responses = s.responses ++ [r] ∧ t.config = s.config ∧ t.pending = s.pending

/-- R33, R31: a register changes only when its own setter runs, and then it holds that setter's operand; `prep` reads
`"000"` in every state. -/
def Obligations.OnlyItsSetterWritesARegister : Prop :=
  (∀ (i : Instr) (s t : State) (r : Reg), exec i s = .next t →
    (∀ v, setting i = some (r, v) → readReg r t.session = v) ∧
    ((∀ v, setting i ≠ some (r, v)) → readReg r t.session = readReg r s.session)) ∧
  ∀ x : Session, readReg .prep x = [0x30#8, 0x30#8, 0x30#8]

/-- R187 (D6): errors are precise. An operation that answers an error changes nothing but the response. -/
def Obligations.ErrorsChangeNothing : Prop :=
  ∀ (i : Instr) (s t : State) (e : Error), exec i s = .next t → t.responses = s.responses ++ [.error e] →
    t = { s with responses := s.responses ++ [.error e] }

/-- R180, R184, R185, R191: who raises what. `MalformedField` only a frame-building operation, under `ENFORCE`, for one of
its fields and with the length found; `UnrepresentableChecksum` nothing (D1, log 11); `UnknownOption` only `LOOKUP`, for its own
operands. -/
def Obligations.EachErrorHasItsOperationAndCause : Prop :=
  ∀ (i : Instr) (s : State),
    (∀ f w n, Responds i s (.error (.malformedField f w n)) → s.config.validate = .enforce ∧
      ∃ cs, allChecks i s.session = some cs ∧ ∃ c ∈ cs, c.field = f ∧ c.width = w ∧ c.value.length = n ∧ n ≠ w) ∧
    (∀ n, ¬ Responds i s (.error (.unrepresentableChecksum n))) ∧
    (∀ t n, Responds i s (.error (.unknownOption t n)) → i = .lookup t n ∧ ¬ (s.config.tables.table t).HasKey n)

/-- R186: under `BYPASS` no `MalformedField` is ever raised, and every frame-building request answers a frame, of the
length its parts have, whatever the widths of its fields. That it does so for a body that sums past 0xFFFF is the spec's
decision D1 (log 11). -/
def Obligations.BypassAlwaysBuildsTheFrame : Prop :=
  ∀ (i : Instr) (s : State), s.config.validate = .bypass →
    (∀ f w n, ¬ Responds i s (.error (.malformedField f w n))) ∧
    (i.wellFormed = true → ∀ n, bodyLength i s.session = some n →
      ∃ f : Bytes, Answers i s (.frame f) ∧
        f.length = 11 + s.session.senderAddress.length + s.session.receiverAddress.length + n ∧
        f.take 6 = [0x00#8, 0x00#8, 0x00#8, 0x00#8, 0x00#8, 0x01#8] ∧ f.getLast? = some 0x04#8)

/-- R32, R120, R182: under `ENFORCE` a frame-building request answers a frame exactly when every one of its fixed-width
fields, its own and the two addresses, has its nominal width. That a body which sums past 0xFFFF then gets its frame is the spec's decision D1
(log 11). -/
def Obligations.EnforcedFramesHaveNominalFields : Prop :=
  ∀ (i : Instr) (s : State) (cs : List Check), s.config.validate = .enforce → i.wellFormed = true →
    allChecks i s.session = some cs → ((∃ f, Responds i s (.frame f)) ↔ ∀ c ∈ cs, c.Nominal)

/-- R40, R53: there is no hidden state. What an operation answers, and the session it leaves, depend on the session and the
configuration alone: not on earlier responses, not on the requests that wait. -/
def Obligations.NoHiddenState : Prop :=
  ∀ (i : Instr) (s1 s2 t1 : State), s1.session = s2.session → s1.config = s2.config → exec i s1 = .next t1 →
    ∃ t2 r, exec i s2 = .next t2 ∧ t2.session = t1.session ∧ t1.responses = s1.responses ++ [r] ∧
      t2.responses = s2.responses ++ [r]

/-- R33: the registers `x[2]` to `x[9]` are read by `TEXT` alone. Any other operation answers the same in two states that
share the two addresses and the configuration. -/
def Obligations.OnlyTextReadsTheTextRegisters : Prop :=
  ∀ (i : Instr) (s1 s2 : State) (r : Response), (∀ td, i ≠ .text td) →
    s1.session.senderAddress = s2.session.senderAddress → s1.session.receiverAddress = s2.session.receiverAddress →
    s1.config = s2.config → Responds i s1 r → Responds i s2 r

/-- R221: under `ENFORCE` a malformed sender or receiver address makes every frame-building request end in an error. -/
def Obligations.MalformedAddressBlocksEveryFrame : Prop :=
  ∀ (i : Instr) (s : State) (cs : List Check), s.config.validate = .enforce → i.wellFormed = true →
    ownChecks i s.session = some cs →
    s.session.senderAddress.length ≠ 2 ∨ s.session.receiverAddress.length ≠ 2 →
      ∃ e, Answers i s (.error e)

/-! ### Reset -/

/-- R211, R34: creating a session stores the inputs unchecked, reads the three codes from the tables, and gives the other
registers their values; nothing is pending and nothing has been answered (D14, D25, D34). -/
def Obligations.ResetGivesEveryRegisterItsValue : Prop :=
  ∀ (c : Config) (sender receiver fn : Bytes), c.tables.Admissible →
    ∃ m d a : Byte, (nameAuto, m) ∈ c.tables.mode ∧ (nameNormal, d) ∈ c.tables.speed ∧ (nameCenter, a) ∈ c.tables.align ∧
      State.create c { senderInit := sender, receiverInit := receiver, filenameInit := fn } =
        { session :=
            { senderAddress := sender, receiverAddress := receiver, filename := fn, displayMode := [m],
              displaySpeed := [d], pauseTime := [0x32#8], showDateMask := [0x37#8, 0x46#8],
              startTime := [0x30#8, 0x30#8, 0x30#8, 0x30#8], stopTime := [0x32#8, 0x34#8, 0x30#8, 0x30#8],
              align := [a] },
          config := c, pending := [], responses := [] }

/-- R34, R12: the reset state has the default addresses `"FF"` and `"00"` and the defaults of the schedule; the rest of it
is open (log 6 to log 8). -/
def Obligations.ResetStateHasTheDefaults : Prop :=
  State.reset.session.senderAddress = [0x46#8, 0x46#8] ∧ State.reset.session.receiverAddress = [0x30#8, 0x30#8] ∧
  State.reset.session.pauseTime = [0x32#8] ∧ State.reset.session.showDateMask = [0x37#8, 0x46#8] ∧
  State.reset.session.startTime = [0x30#8, 0x30#8, 0x30#8, 0x30#8] ∧
  State.reset.session.stopTime = [0x32#8, 0x34#8, 0x30#8, 0x30#8] ∧
  readReg .prep State.reset.session = [0x30#8, 0x30#8, 0x30#8] ∧
  State.reset.pending = [] ∧ State.reset.responses = []

/-- R212: with nominal reset inputs every register is nominal after reset; a setter with an operand of its register's
nominal width, and every other operation, keeps it so; then no operation at all, the `SF_` ones among them, raises a
`MalformedField` for an address, and every `TEXT` and every `BUILD_FRAME` answers a frame, so raises none for any register.
That they answer it for a body which sums past 0xFFFF is the spec's decision D1 (log 11). -/
def Obligations.NominalSessionsStayNominal : Prop :=
  (∀ (c : Config) (sender receiver fn : Bytes), c.tables.Admissible → sender.length = 2 → receiver.length = 2 →
    fn.length = 1 →
    NominalSession
      (State.create c { senderInit := sender, receiverInit := receiver, filenameInit := fn }).session) ∧
  (∀ (i : Instr) (s t : State), NominalSession s.session → (∀ r v, setting i = some (r, v) → v.length = r.width) →
    exec i s = .next t → NominalSession t.session) ∧
  (∀ (i : Instr) (s : State) (w n : Nat), NominalSession s.session →
    ¬ Responds i s (.error (.malformedField .senderAddress w n)) ∧
    ¬ Responds i s (.error (.malformedField .receiverAddress w n))) ∧
  ∀ (s : State) (b : Bytes), NominalSession s.session →
    (∃ f, Answers (.text b) s (.frame f)) ∧ ∃ f, Answers (.buildFrame b) s (.frame f)

/-- R9, R34: the reset state is safe. -/
def Obligations.ResetStateIsSafe : Prop := Inv State.reset

/-- Every step from a safe state leads to a safe state: the tables stay a configuration of the block, and every response
ever given is one the configuration allows. That an unrepresentable checksum is never among them is the spec's decision D1
(log 11). -/
def Obligations.EveryStepKeepsSafety : Prop :=
  ∀ s t : State, Inv s → step s = .next t → Inv t

/-- R35, R62, R228: as many steps as there are pending requests take them all, in arrival order: the run ends with nothing
pending, in the state that performing the requests one after the other leaves, with exactly one more response for each
(the queue and its encoding are the model's, log 1 and log 3). -/
def Obligations.RunPerformsRequestsInArrivalOrder : Prop :=
  ∀ (s : State) (is : List Instr), (∀ i ∈ is, i.wellFormed = true) → s.pending = is.map encode →
    Sys2Proof.core.run is.length s = .next (performAll is { s with pending := [] }) ∧
    (performAll is { s with pending := [] }).pending = [] ∧
    (performAll is { s with pending := [] }).responses.length = s.responses.length + is.length

/-! ### Well-formed text -/

/-- R223: well-formed text (R85, R81) holds no `02`, `03` or `04`, so a reader that scans a nominal Write-text frame from the
text's offset to the first ETX finds exactly the text; a text that holds a `03` stands in the frame as it is and is cut
short by such a scan. Which bytes may follow `FB` and `F9`, and that a `FONT` or `COLOR` code of `02`, `03` or `04` is not
admitted, is log 15's reading of the predicate. -/
def Obligations.WellFormedTextIsFoundByScanningToEtx : Prop :=
  (∀ (ts : Tables) (td : Bytes), wfText ts td = true → 0x02#8 ∉ td ∧ 0x03#8 ∉ td ∧ 0x04#8 ∉ td) ∧
  ∀ (s : State) (fn dm ds pt md st sp al td f : Bytes),
    (∀ c ∈ textChecks fn dm ds pt md st sp al ++ addressChecks s.session, c.Nominal) →
    Responds (.wrText fn dm ds pt md st sp al td) s (.frame f) →
      (f.drop 30).take td.length = td ∧
      (wfText s.config.tables td = true → (f.drop 30).takeWhile (· != 0x03#8) = td) ∧
      (0x03#8 ∈ td → ((f.drop 30).takeWhile (· != 0x03#8)).length < td.length)
end

