-- ==== Sys2Proof/Laws/Checksum.lean ====
section
/-! SUPPORT. The checksum and the decimal digits: shape and value (R110, R111, R113, R144). -/

namespace Sys2Proof.Machine

open Sys2Proof.Safety

@[simp] theorem sumBytes_nil : sumBytes [] = 0 := rfl
@[simp] theorem sumBytes_cons (b : Byte) (w : Bytes) : sumBytes (b :: w) = b.toNat + sumBytes w := rfl

@[simp] theorem sumBytes_append (v w : Bytes) : sumBytes (v ++ w) = sumBytes v + sumBytes w := by
  induction v with
  | nil => simp
  | cons b v ih => simp [ih]; omega

/-- The model's sum is the sum the claims speak of. -/
theorem sumBytes_eq_byteSum (w : Bytes) : sumBytes w = byteSum w := by
  induction w with
  | nil => rfl
  | cons b w ih => simp [ih, byteSum]

/-- The sum does not depend on the order of the bytes. -/
theorem sumBytes_perm {v w : Bytes} (h : v.Perm w) : sumBytes v = sumBytes w := by
  rw [sumBytes_eq_byteSum, sumBytes_eq_byteSum]
  exact (h.map _).sum_eq

theorem sumBytes_le (w : Bytes) : sumBytes w ≤ 255 * w.length := by
  induction w with
  | nil => simp
  | cons b w ih => simp; have := b.isLt; omega

/-- Each digit is an uppercase hexadecimal digit. -/
theorem digit_upperHex (v : BitVec 4) : UpperHex (digit v) := by
  revert v; decide

/-- Each digit reads back as its value. -/
theorem digit_value (v : BitVec 4) :
    (if (digit v).toNat ≤ 0x39 then (digit v).toNat - 0x30 else (digit v).toNat - 0x41 + 10) = v.toNat := by
  revert v; decide

@[simp] theorem hex4_length (n : BitVec 16) : (hex4 n).length = 4 := rfl
@[simp] theorem cks_length (w : Bytes) : (cks w).length = 4 := rfl

theorem hex4_upperHex (n : BitVec 16) : ∀ d ∈ hex4 n, UpperHex d := by
  intro d hd
  simp only [hex4, List.mem_cons, List.not_mem_nil, or_false] at hd
  rcases hd with rfl | rfl | rfl | rfl <;> exact digit_upperHex _

/-- The four digits spell the number. -/
theorem hexValue_hex4 (n : BitVec 16) : hexValue (hex4 n) = n.toNat := by
  have h := n.isLt
  simp only [hexValue, hex4, List.foldl_cons, List.foldl_nil, digit_value, BitVec.extractLsb'_toNat]
  simp only [Nat.shiftRight_eq_div_pow]
  omega

theorem cks_upperHex (w : Bytes) : ∀ d ∈ cks w, UpperHex d := hex4_upperHex _

/-- R111: the checksum spells the sum modulo 65536. -/
theorem hexValue_cks (w : Bytes) : hexValue (cks w) = sumBytes w % 65536 := by
  simp [cks, hexValue_hex4, s16]

/-- Equal sums give equal checksums. -/
theorem cks_congr {v w : Bytes} (h : sumBytes v = sumBytes w) : cks v = cks w := by
  simp [cks, s16, h]

/-! ### Decimal digits -/

@[simp] theorem dec_length (w n : Nat) : (dec w n).length = w := by
  induction w generalizing n with
  | zero => rfl
  | succ w ih => simp [dec, ih]

theorem decDigit_toNat (n : Nat) : (BitVec.ofNat 8 (0x30 + n % 10)).toNat = 0x30 + n % 10 := by
  simp only [BitVec.toNat_ofNat]; omega

theorem dec_digits (w n : Nat) : ∀ d ∈ dec w n, 0x30 ≤ d.toNat ∧ d.toNat ≤ 0x39 := by
  induction w generalizing n with
  | zero => simp [dec]
  | succ w ih =>
    intro d hd
    simp only [dec, List.mem_append, List.mem_singleton] at hd
    rcases hd with hd | rfl
    · exact ih _ _ hd
    · rw [decDigit_toNat]; omega

/-- The `w` digits spell the number, when it has no more than `w` digits. -/
theorem decValue_dec (w n : Nat) (h : n < 10 ^ w) : decValue (dec w n) = n := by
  induction w generalizing n with
  | zero => simp at h; simp [dec, decValue, h]
  | succ w ih =>
    have h' : n / 10 < 10 ^ w := by rw [Nat.pow_succ] at h; omega
    have := ih _ h'
    simp only [decValue, dec, List.foldl_append, List.foldl_cons, List.foldl_nil] at this ⊢
    rw [this, decDigit_toNat]; omega

@[simp] theorem fmtNow_length (now : Now) : (fmtNow now).length = 15 := by simp [fmtNow]

end Sys2Proof.Machine
end

