-- ==== Sys2Proof/Laws/Decode.lean ====
section
/-! SUPPORT. The decoder's primitives read back what the encoder writes, and accept nothing else. -/

namespace Sys2Proof

@[simp] theorem bind_ok {α β : Type} (a : α) (f : α → Except Reject β) : (Except.ok a >>= f) = f a := rfl
@[simp] theorem bind_error {α β : Type} (e : Reject) (f : α → Except Reject β) :
    (Except.error e >>= f) = Except.error e := rfl

/-- A parse in two parts gives a result only if both parts do. -/
theorem bind_eq_ok {α β : Type} {x : Except Reject α} {f : α → Except Reject β} {b : β} :
    (x >>= f) = .ok b ↔ ∃ a, x = .ok a ∧ f a = .ok b := by
  cases x with
  | error e => simp
  | ok a => simp

/-! ### Numbers -/

theorem parseNat_small {b : Byte} (h : b.toNat < 128) (rest : Bytes) : parseNat (b :: rest) = .ok (b.toNat, rest) := by
  simp [parseNat, h]

theorem parseNat_encodeNatFuel (fuel n : Nat) (h : n ≤ fuel) (rest : Bytes) :
    parseNat (encodeNatFuel fuel n ++ rest) = .ok (n, rest) := by
  induction fuel generalizing n with
  | zero =>
    obtain rfl : n = 0 := by omega
    rfl
  | succ fuel ih =>
    by_cases hn : n < 128
    · have hb : (BitVec.ofNat 8 n).toNat = n := by simp only [BitVec.toNat_ofNat]; omega
      simp [encodeNatFuel, hn, parseNat, hb]
    · have hb : (BitVec.ofNat 8 (n % 128 + 128)).toNat = n % 128 + 128 := by simp only [BitVec.toNat_ofNat]; omega
      obtain ⟨k, hk⟩ : ∃ k, n / 128 = k + 1 := ⟨n / 128 - 1, by omega⟩
      have := ih (n / 128) (by omega)
      simp only [encodeNatFuel, hn, if_false, List.cons_append, parseNat, hb, this]
      rw [if_neg (by omega), hk]
      simp only [Except.ok.injEq, Prod.mk.injEq, and_true]
      omega

/-- A number reads back. -/
@[simp] theorem parseNat_encodeNat (n : Nat) (rest : Bytes) : parseNat (encodeNat n ++ rest) = .ok (n, rest) :=
  parseNat_encodeNatFuel n n le_rfl rest

/-- More fuel than digits changes nothing. -/
theorem encodeNatFuel_eq (f g n : Nat) (hf : n ≤ f) (hg : n ≤ g) : encodeNatFuel f n = encodeNatFuel g n := by
  induction f generalizing g n with
  | zero =>
    obtain rfl : n = 0 := by omega
    cases g <;> simp [encodeNatFuel]
  | succ f ih =>
    cases g with
    | zero => obtain rfl : n = 0 := by omega
              simp [encodeNatFuel]
    | succ g =>
      simp only [encodeNatFuel]
      split
      · rfl
      · rw [ih g (n / 128) (by omega) (by omega)]

theorem encodeNat_small {n : Nat} (h : n < 128) : encodeNat n = [BitVec.ofNat 8 n] := by
  cases n <;> simp_all [encodeNat, encodeNatFuel]

theorem encodeNat_large {n : Nat} (h : 128 ≤ n) :
    encodeNat n = BitVec.ofNat 8 (n % 128 + 128) :: encodeNat (n / 128) := by
  obtain ⟨m, rfl⟩ : ∃ m, n = m + 1 := ⟨n - 1, by omega⟩
  rw [encodeNat, encodeNatFuel, if_neg (by omega), encodeNat,
    encodeNatFuel_eq m ((m + 1) / 128) _ (by omega) le_rfl]

/-- Bytes read as a number are that number's only spelling. -/
theorem eq_of_parseNat {w : Bytes} {n : Nat} {r : Bytes} (h : parseNat w = .ok (n, r)) : w = encodeNat n ++ r := by
  induction w generalizing n r with
  | nil => simp [parseNat] at h
  | cons b w ih =>
    have hb := b.isLt
    by_cases hs : b.toNat < 128
    · simp only [parseNat, hs, if_true, Except.ok.injEq, Prod.mk.injEq] at h
      obtain ⟨rfl, rfl⟩ := h
      simp [encodeNat_small hs]
    · simp only [parseNat, hs, if_false] at h
      cases hp : parseNat w with
      | error e => simp [hp] at h
      | ok p =>
        obtain ⟨m, r'⟩ := p
        rw [hp] at h
        cases m with
        | zero => simp at h
        | succ m =>
          simp only [Except.ok.injEq, Prod.mk.injEq] at h
          obtain ⟨rfl, rfl⟩ := h
          rw [encodeNat_large (by omega), ih hp]
          have e1 : (b.toNat - 128 + 128 * (m + 1)) % 128 + 128 = b.toNat := by omega
          have e2 : (b.toNat - 128 + 128 * (m + 1)) / 128 = m + 1 := by omega
          rw [e1, e2]
          simp

/-! ### Byte strings and tables -/

/-- A byte string reads back, at any length. -/
@[simp] theorem parseBytes_encodeBytes (b rest : Bytes) : parseBytes (encodeBytes b ++ rest) = .ok (b, rest) := by
  simp [parseBytes, encodeBytes, List.append_assoc]

theorem eq_of_parseBytes {w b r : Bytes} (h : parseBytes w = .ok (b, r)) : w = encodeBytes b ++ r := by
  unfold parseBytes at h
  cases hp : parseNat w with
  | error e => simp [hp] at h
  | ok p =>
    obtain ⟨n, r'⟩ := p
    rw [hp] at h
    by_cases hn : n ≤ r'.length
    · simp only [hn, if_true, Except.ok.injEq, Prod.mk.injEq] at h
      obtain ⟨rfl, rfl⟩ := h
      rw [eq_of_parseNat hp]
      simp [encodeBytes, Nat.min_eq_left hn, List.append_assoc]
    · simp [hn] at h

@[simp] theorem parseTable_encodeNat (t : TableId) (rest : Bytes) :
    parseTable (encodeNat t.number ++ rest) = .ok (t, rest) := by
  cases t <;> simp [parseTable, TableId.number]

theorem eq_of_parseTable {w : Bytes} {t : TableId} {r : Bytes} (h : parseTable w = .ok (t, r)) :
    w = encodeNat t.number ++ r := by
  unfold parseTable at h
  split at h <;> first
    | (cases h; done)
    | (rename_i hp; cases h; exact eq_of_parseNat hp)

/-! ### The time record -/

/-- A time within R144's bounds reads back. -/
theorem parseNow_encodeNow (now : Now) (h : now.inBounds = true) (rest : Bytes) :
    parseNow (encodeNow now ++ rest) = .ok (now, rest) := by
  obtain ⟨y, mo, d, hh, mi, sc, wd⟩ := now
  simp [parseNow, encodeNow, List.append_assoc, h]

theorem eq_of_parseNow {w : Bytes} {now : Now} {r : Bytes} (h : parseNow w = .ok (now, r)) :
    now.inBounds = true ∧ w = encodeNow now ++ r := by
  simp only [parseNow, bind_eq_ok, Prod.exists] at h
  obtain ⟨y, w1, h1, mo, w2, h2, d, w3, h3, hh, w4, h4, mi, w5, h5, sc, w6, h6, wd, w7, h7, h⟩ := h
  split at h
  · rename_i hb
    simp only [Except.ok.injEq, Prod.mk.injEq] at h
    obtain ⟨rfl, rfl⟩ := h
    refine ⟨hb, ?_⟩
    rw [eq_of_parseNat h1, eq_of_parseNat h2, eq_of_parseNat h3, eq_of_parseNat h4, eq_of_parseNat h5,
      eq_of_parseNat h6, eq_of_parseNat h7]
    simp [encodeNow, List.append_assoc]
  · cases h

end Sys2Proof
end

