-- ==== Sys2Proof/Laws/State.lean ====
section
/-! SUPPORT. What each update of the state does to each field, and what a register write does to each register. -/

namespace Sys2Proof.Machine

section
variable (s : State) (r : Response) (e : Error) (reg : Reg) (v : Bytes)

@[simp] theorem State.respond_session : (s.respond r).session = s.session := rfl
@[simp] theorem State.respond_config : (s.respond r).config = s.config := rfl
@[simp] theorem State.respond_pending : (s.respond r).pending = s.pending := rfl
@[simp] theorem State.respond_responses : (s.respond r).responses = s.responses ++ [r] := rfl

@[simp] theorem State.raise_eq_respond : s.raise e = s.respond (.error e) := rfl

@[simp] theorem State.configure_session : (s.configure reg v).session = writeReg reg v s.session := rfl
@[simp] theorem State.configure_config : (s.configure reg v).config = s.config := rfl
@[simp] theorem State.configure_pending : (s.configure reg v).pending = s.pending := rfl
@[simp] theorem State.configure_responses : (s.configure reg v).responses = s.responses ++ [.ok] := rfl

@[simp] theorem State.submit_session : (s.submit v).session = s.session := rfl
@[simp] theorem State.submit_config : (s.submit v).config = s.config := rfl
@[simp] theorem State.submit_pending : (s.submit v).pending = s.pending ++ [v] := rfl
@[simp] theorem State.submit_responses : (s.submit v).responses = s.responses := rfl

@[simp] theorem State.withRequest_session : (s.withRequest v).session = s.session := rfl
@[simp] theorem State.withRequest_config : (s.withRequest v).config = s.config := rfl
@[simp] theorem State.withRequest_pending : (s.withRequest v).pending = v :: s.pending := rfl
@[simp] theorem State.withRequest_responses : (s.withRequest v).responses = s.responses := rfl

end

/-- A response on top of a state is a record update of its list of responses. -/
theorem State.respond_eq (s : State) (r : Response) : s.respond r = { s with responses := s.responses ++ [r] } := rfl

/-- Two responses on top of one state are equal only if they are the same response. -/
theorem State.respond_inj {s : State} {r r' : Response} (h : s.respond r = s.respond r') : r = r' := by
  have := congrArg State.responses h
  simpa using this

theorem State.takeRequest_nil {s : State} (h : s.pending = []) : s.takeRequest = none := by
  simp [State.takeRequest, h]

theorem State.takeRequest_cons {s : State} {request : Bytes} {rest : List Bytes} (h : s.pending = request :: rest) :
    s.takeRequest = some (request, { s with pending := rest }) := by
  simp [State.takeRequest, h]

/-- The hardwired register reads as `"000"` (R31). -/
@[simp] theorem readReg_prep (x : Session) : readReg .prep x = [0x30#8, 0x30#8, 0x30#8] := rfl

/-- A register that is not hardwired reads as what was last written to it. -/
theorem readReg_writeReg_same {r : Reg} (hr : r ≠ .prep) (v : Bytes) (x : Session) :
    readReg r (writeReg r v x) = v := by
  cases r <;> first | rfl | exact absurd rfl hr

/-- A write leaves every other register alone. -/
theorem readReg_writeReg_other {r q : Reg} (h : q ≠ r) (v : Bytes) (x : Session) :
    readReg q (writeReg r v x) = readReg q x := by
  cases r <;> cases q <;> first | rfl | exact absurd rfl h

end Sys2Proof.Machine
end

