-- ==== Sys2Proof/Laws/Ops.lean ====
section
/-! SUPPORT. What the shared operations can do: the length checks, building a frame, encoding a body. -/

namespace Sys2Proof.Machine

/-- Under `BYPASS` a check does nothing (R182). -/
@[simp] theorem checkLen_bypass (f : Field) (v : Bytes) : checkLen .bypass f v = none := by simp [checkLen]

theorem checkLen_nominal {mode : Validate} {f : Field} {v : Bytes} (h : v.length = f.width) :
    checkLen mode f v = none := by simp [checkLen, h]

theorem checkLen_malformed {f : Field} {v : Bytes} (h : v.length ≠ f.width) :
    checkLen .enforce f v = some (.malformedField f f.width v.length) := by simp [checkLen, h]

/-- The one error a check can raise. -/
theorem checkLen_some {mode : Validate} {f : Field} {v : Bytes} {e : Error} (h : checkLen mode f v = some e) :
    mode = .enforce ∧ v.length ≠ f.width ∧ e = .malformedField f f.width v.length := by
  unfold checkLen at h
  split at h
  · rename_i hc; exact ⟨hc.1, hc.2, (Option.some.inj h).symm⟩
  · cases h

@[simp] theorem checkAll_bypass (cs : List (Field × Bytes)) : checkAll .bypass cs = none := by
  induction cs with
  | nil => rfl
  | cons c cs ih => obtain ⟨f, v⟩ := c; simp [checkAll, ih]

theorem checkAll_nominal {mode : Validate} {cs : List (Field × Bytes)} (h : ∀ c ∈ cs, c.2.length = c.1.width) :
    checkAll mode cs = none := by
  induction cs with
  | nil => rfl
  | cons c cs ih =>
    obtain ⟨f, v⟩ := c
    have hv : v.length = f.width := h (f, v) (by simp)
    simp only [checkAll, checkLen_nominal hv]
    exact ih fun c hc => h c (List.mem_cons_of_mem _ hc)

/-- Nominal checks are passed over. -/
theorem checkAll_append {mode : Validate} {cs : List (Field × Bytes)} (h : ∀ c ∈ cs, c.2.length = c.1.width)
    (ds : List (Field × Bytes)) : checkAll mode (cs ++ ds) = checkAll mode ds := by
  induction cs with
  | nil => rfl
  | cons c cs ih =>
    obtain ⟨f, v⟩ := c
    have hv : v.length = f.width := h (f, v) (by simp)
    simp only [List.cons_append, checkAll, checkLen_nominal hv]
    exact ih fun c hc => h c (List.mem_cons_of_mem _ hc)

/-- Checks are run one list after the other. -/
theorem checkAll_append_eq (mode : Validate) (cs ds : List (Field × Bytes)) :
    checkAll mode (cs ++ ds) = (checkAll mode cs).orElse fun _ => checkAll mode ds := by
  induction cs with
  | nil => rfl
  | cons c cs ih =>
    obtain ⟨f, v⟩ := c
    simp only [List.cons_append, checkAll]
    cases checkLen mode f v <;> simp [ih]

/-- An error of a run of checks is under `ENFORCE`, of one of its fields, with the length found (R181, R182). -/
theorem checkAll_some {mode : Validate} {cs : List (Field × Bytes)} {e : Error} (h : checkAll mode cs = some e) :
    mode = .enforce ∧ ∃ c ∈ cs, c.2.length ≠ c.1.width ∧ e = .malformedField c.1 c.1.width c.2.length := by
  induction cs with
  | nil => simp [checkAll] at h
  | cons c cs ih =>
    obtain ⟨f, v⟩ := c
    simp only [checkAll] at h
    cases hc : checkLen mode f v with
    | some e' =>
      rw [hc] at h
      obtain ⟨h1, h2, h3⟩ := checkLen_some hc
      exact ⟨h1, (f, v), by simp, h2, by rw [← h3]; exact (Option.some.inj h).symm⟩
    | none =>
      rw [hc] at h
      obtain ⟨h1, c, hm, h2⟩ := ih h
      exact ⟨h1, c, List.mem_cons_of_mem _ hm, h2⟩

/-- Under `ENFORCE` a run of checks passes only when every field is nominal. -/
theorem checkAll_enforce_none {cs : List (Field × Bytes)} (h : checkAll .enforce cs = none) :
    ∀ c ∈ cs, c.2.length = c.1.width := by
  induction cs with
  | nil => simp
  | cons c cs ih =>
    obtain ⟨f, v⟩ := c
    by_cases hv : v.length = f.width
    · simp only [checkAll, checkLen_nominal hv] at h
      intro d hd
      rcases List.mem_cons.mp hd with rfl | hd
      · exact hv
      · exact ih h d hd
    · simp [checkAll, checkLen_malformed hv] at h

/-- The checks of the Frame Builder (R114). -/
def addressFields (x : Session) : List (Field × Bytes) :=
  [(.senderAddress, x.senderAddress), (.receiverAddress, x.receiverAddress)]

/-- Everything an encoder can do: with its own checks and the two address checks in one run, it answers the first error, or
else the frame around its body. -/
theorem State.encodeBody_eq (own : List (Field × Bytes)) (bytes : Bytes) (s : State) :
    s.encodeBody own bytes =
      match checkAll s.config.validate (own ++ addressFields s.session) with
      | some e => s.respond (.error e)
      | none => s.respond (.frame (frameOf s.session.senderAddress s.session.receiverAddress bytes)) := by
  rw [checkAll_append_eq]
  unfold State.encodeBody State.buildFrame
  cases checkAll s.config.validate own with
  | some e => rfl
  | none => rfl

/-- Building a frame is encoding a body without checks of one's own. -/
theorem State.buildFrame_eq_encodeBody (bytes : Bytes) (s : State) : s.buildFrame bytes = s.encodeBody [] bytes := rfl

theorem State.writeSpecial_eq_encodeBody (sub payload : Bytes) (s : State) :
    s.writeSpecial sub payload = s.encodeBody [(.subcommand, sub)] (bodyWriteSpecial sub payload) := rfl

/-- A special function's one-byte subcommand always passes its check (R140). -/
theorem State.writeSpecial_one (sub : Byte) (payload : Bytes) (s : State) :
    s.writeSpecial [sub] payload = s.encodeBody [] (bodyWriteSpecial [sub] payload) := by
  have h : checkLen s.config.validate .subcommand [sub] = none := checkLen_nominal rfl
  simp [State.writeSpecial, State.encodeBody, checkAll, h]

/-- A special function with a payload checks its payload, then builds the frame of its body. -/
theorem State.specialFunction_eq_encodeBody (f : Field) (sub : Byte) (payload : Bytes) (s : State) :
    s.specialFunction f sub payload = s.encodeBody [(f, payload)] (bodyWriteSpecial [sub] payload) := by
  unfold State.specialFunction State.encodeBody
  rw [State.writeSpecial_one]
  cases h : checkLen s.config.validate f payload <;> simp [checkAll, h, State.encodeBody]

/-- An encoder adds one response and changes nothing else. -/
theorem State.encodeBody_responds (own : List (Field × Bytes)) (bytes : Bytes) (s : State) :
    ∃ r, s.encodeBody own bytes = s.respond r := by
  rw [State.encodeBody_eq]
  split
  · exact ⟨_, rfl⟩
  · exact ⟨_, rfl⟩

@[simp] theorem frameOf_length (a b body : Bytes) : (frameOf a b body).length = 11 + a.length + b.length + body.length := by
  simp [frameOf, cks, hex4]; omega

end Sys2Proof.Machine
end

