-- ==== Sys2Proof/Laws/PerInstr.lean ====
section
/-! SUPPORT. A fact about the syntax of every operation, one lemma a constructor: the first byte of its request is the
selector that R86's table gives it. -/

namespace Sys2Proof.Laws.SelectorFirst

/-- The first byte of the request is the operation's selector, and the operands follow it. -/
def Statement (i : Instr) : Prop := encode i = i.selector :: encodeOperands i ∧ (encode i).head? = some i.selector

theorem lookup (t : TableId) (n : Name) : Statement (.lookup t n) := ⟨rfl, rfl⟩
theorem checksum (a : Bytes) : Statement (.checksum a) := ⟨rfl, rfl⟩
theorem buildFrame (a : Bytes) : Statement (.buildFrame a) := ⟨rfl, rfl⟩
theorem wrText (fn dm ds pt md st sp al td : Bytes) : Statement (.wrText fn dm ds pt md st sp al td) := ⟨rfl, rfl⟩
theorem wrVar (a b c : Bytes) : Statement (.wrVar a b c) := ⟨rfl, rfl⟩
theorem wrGfx (a b c : Bytes) : Statement (.wrGfx a b c) := ⟨rfl, rfl⟩
theorem wrSpecial (a b : Bytes) : Statement (.wrSpecial a b) := ⟨rfl, rfl⟩
theorem rdSpecial (a b : Bytes) : Statement (.rdSpecial a b) := ⟨rfl, rfl⟩
theorem text (a : Bytes) : Statement (.text a) := ⟨rfl, rfl⟩
theorem sfClear : Statement (.sfClear) := ⟨rfl, rfl⟩
theorem sfReset : Statement (.sfReset) := ⟨rfl, rfl⟩
theorem sfClock (a : Bytes) : Statement (.sfClock a) := ⟨rfl, rfl⟩
theorem sfClocksync (a : Now) : Statement (.sfClocksync a) := ⟨rfl, rfl⟩
theorem sfPassword (a : Bytes) : Statement (.sfPassword a) := ⟨rfl, rfl⟩
theorem sfDevnum (a : Bytes) : Statement (.sfDevnum a) := ⟨rfl, rfl⟩
theorem sfWindows (a : Bytes) : Statement (.sfWindows a) := ⟨rfl, rfl⟩
theorem sfDispmode (a : Bytes) : Statement (.sfDispmode a) := ⟨rfl, rfl⟩
theorem sfCuevoice (a : Bytes) : Statement (.sfCuevoice a) := ⟨rfl, rfl⟩
theorem sfPwmode (a : Bytes) : Statement (.sfPwmode a) := ⟨rfl, rfl⟩
theorem sfBright (a : Bytes) : Statement (.sfBright a) := ⟨rfl, rfl⟩
theorem cfgSender (a : Bytes) : Statement (.cfgSender a) := ⟨rfl, rfl⟩
theorem cfgReceiver (a : Bytes) : Statement (.cfgReceiver a) := ⟨rfl, rfl⟩
theorem cfgFilename (a : Bytes) : Statement (.cfgFilename a) := ⟨rfl, rfl⟩
theorem cfgMode (a : Bytes) : Statement (.cfgMode a) := ⟨rfl, rfl⟩
theorem cfgSpeed (a : Bytes) : Statement (.cfgSpeed a) := ⟨rfl, rfl⟩
theorem cfgPause (a : Bytes) : Statement (.cfgPause a) := ⟨rfl, rfl⟩
theorem cfgDatemask (a : Bytes) : Statement (.cfgDatemask a) := ⟨rfl, rfl⟩
theorem cfgStart (a : Bytes) : Statement (.cfgStart a) := ⟨rfl, rfl⟩
theorem cfgStop (a : Bytes) : Statement (.cfgStop a) := ⟨rfl, rfl⟩
theorem cfgAlign (a : Bytes) : Statement (.cfgAlign a) := ⟨rfl, rfl⟩

end Sys2Proof.Laws.SelectorFirst
end

