-- ==== Sys2Proof/Laws/Tables.lean ====
section
/-! SUPPORT. The code tables: the read of a finite map, and that the open configuration is a configuration (R9, R58). -/

namespace Sys2Proof

theorem CodeTable.mem_of_mem_injectivePart {t : CodeTable} {e : Name × Byte} (h : e ∈ CodeTable.injectivePart t) :
    e ∈ t := by
  induction t with
  | nil => simp [CodeTable.injectivePart] at h
  | cons a t ih =>
    simp only [CodeTable.injectivePart, List.mem_cons, List.mem_filter] at h
    rcases h with rfl | ⟨h, _⟩
    · simp
    · exact List.mem_cons_of_mem _ (ih h)

/-- Whatever a list of pairs is, its injective part is an injective table. -/
theorem CodeTable.injectivePart_injective (t : CodeTable) : (CodeTable.injectivePart t).Injective := by
  induction t with
  | nil => exact List.Pairwise.nil
  | cons a t ih =>
    refine List.Pairwise.cons ?_ (ih.sublist List.filter_sublist)
    intro b hb
    have hb := (List.mem_filter.mp hb).2
    simp only [decide_eq_true_eq] at hb
    exact ⟨Ne.symm hb.1, Ne.symm hb.2⟩

theorem CodeTable.injectivePart_hasKey (k : Name) (c : Byte) (t : CodeTable) :
    (CodeTable.injectivePart ((k, c) :: t)).HasKey k := by
  simp [CodeTable.injectivePart]

/-- The open tables are an admissible configuration (R9, D25). -/
theorem Config.openTables_admissible : Config.openTables.Admissible :=
  ⟨CodeTable.injectivePart_injective _, CodeTable.injectivePart_injective _, CodeTable.injectivePart_injective _,
   CodeTable.injectivePart_injective _, CodeTable.injectivePart_injective _, CodeTable.injectivePart_injective _,
   CodeTable.injectivePart_hasKey _ _ _, CodeTable.injectivePart_hasKey _ _ _, CodeTable.injectivePart_hasKey _ _ _⟩

theorem Tables.Admissible.injective {t : Tables} (h : t.Admissible) (k : TableId) : (t.table k).Injective := by
  obtain ⟨h1, h2, h3, h4, h5, h6, _⟩ := h
  cases k <;> assumption

namespace Machine

/-- A name has no code exactly when it is no key. -/
theorem codeOf_eq_none {t : CodeTable} {k : Name} : codeOf t k = none ↔ ¬ t.HasKey k := by
  induction t with
  | nil => simp [codeOf]
  | cons e t ih =>
    obtain ⟨n, c⟩ := e
    by_cases h : n = k
    · simp [codeOf, h]
    · have h' : ¬ k = n := fun e => h e.symm
      simp only [codeOf, h, if_false, ih, CodeTable.HasKey, List.map_cons, List.mem_cons, h', false_or]

/-- The code read for a name stands beside it in the table. -/
theorem mem_of_codeOf {t : CodeTable} {k : Name} {c : Byte} (h : codeOf t k = some c) : (k, c) ∈ t := by
  induction t with
  | nil => simp [codeOf] at h
  | cons e t ih =>
    obtain ⟨n, d⟩ := e
    by_cases hn : n = k
    · simp [codeOf, hn] at h; simp [hn, h]
    · simp [codeOf, hn] at h; exact List.mem_cons_of_mem _ (ih h)

/-- In an injective table a key's code is read for it. -/
theorem codeOf_of_mem {t : CodeTable} (ht : t.Injective) {k : Name} {c : Byte} (h : (k, c) ∈ t) :
    codeOf t k = some c := by
  induction t with
  | nil => simp at h
  | cons e t ih =>
    obtain ⟨n, d⟩ := e
    obtain ⟨h1, h2⟩ := List.pairwise_cons.mp ht
    rcases List.mem_cons.mp h with h | h
    · cases h; simp [codeOf]
    · have := (h1 _ h).1
      simp only [codeOf]
      rw [if_neg this]
      exact ih h2 h

end Machine

end Sys2Proof
end

