-- ==== Sys2Proof/Tests/Slice0.lean ====
section
/-! SUPPORT. Tests, and witnesses for the statements. Expected results are the vectors of 95_test_vectors.md (their ids
stand before the theorems), or written out from the rules named. The table instance `t0` is that file's T0: test-only, not a
claim about any device. -/

namespace Sys2Proof.Tests

open Sys2Proof.Machine Sys2Proof.Safety

/-- T0 of 95_test_vectors.md. -/
def t0 : Tables where
  mode := [(nameAuto, 0x61#8), ([0x68#8, 0x6F#8, 0x6C#8, 0x64#8], 0x62#8)]
  speed := [(nameNormal, 0x6E#8), ([0x66#8, 0x61#8, 0x73#8, 0x74#8], 0x66#8)]
  align := [(nameCenter, 0x63#8), ([0x6C#8, 0x65#8, 0x66#8, 0x74#8], 0x6C#8)]
  font := [([0x66#8, 0x31#8], 0x51#8)]
  color := [([0x63#8, 0x31#8], 0x52#8)]
  symbol := [([0x73#8, 0x75#8, 0x6E#8], 0x53#8)]

/-- RESET0(T0, "0") under a `VALIDATE` mode. -/
def st (v : Validate) : State := State.create ⟨v, t0⟩ { filenameInit := [0x30#8] }

/-- The same with other addresses. -/
def stAddr (v : Validate) (a b : Bytes) : State :=
  State.create ⟨v, t0⟩ { senderInit := a, receiverInit := b, filenameInit := [0x30#8] }

/-- The response an operation ends with. -/
def answer (i : Instr) (s : State) : Option Response :=
  match exec i s with
  | .next t => t.responses.getLast?
  | .fault _ => none
  | .refused _ => none

/-- The session an operation leaves. -/
def leaves (i : Instr) (s : State) : Option Session :=
  match exec i s with
  | .next t => some t.session
  | .fault _ => none
  | .refused _ => none

/-- `ENV` of 95_test_vectors.md. -/
def env : Bytes := [0x00#8, 0x00#8, 0x00#8, 0x00#8, 0x00#8, 0x01#8, 0x46#8, 0x46#8, 0x30#8, 0x30#8]

/-! ### Ill-formed terms are refused -/

theorem test_wf_year : (Instr.sfClocksync ⟨10000, 1, 1, 0, 0, 0, 0⟩).wellFormed = false := by decide
theorem test_wf_month : (Instr.sfClocksync ⟨2024, 100, 1, 0, 0, 0, 0⟩).wellFormed = false := by decide
theorem test_wf_day : (Instr.sfClocksync ⟨2024, 1, 100, 0, 0, 0, 0⟩).wellFormed = false := by decide
theorem test_wf_hour : (Instr.sfClocksync ⟨2024, 1, 1, 100, 0, 0, 0⟩).wellFormed = false := by decide
theorem test_wf_minute : (Instr.sfClocksync ⟨2024, 1, 1, 0, 100, 0, 0⟩).wellFormed = false := by decide
theorem test_wf_second : (Instr.sfClocksync ⟨2024, 1, 1, 0, 0, 100, 0⟩).wellFormed = false := by decide
theorem test_wf_weekday : (Instr.sfClocksync ⟨2024, 1, 1, 0, 0, 0, 10⟩).wellFormed = false := by decide

theorem test_wfAddr : wfAddr [0x46#8, 0x46#8] = true ∧ wfAddr [0x46#8] = false := by decide
theorem test_wfFilename : wfFilename [0x5A#8] = true ∧ wfFilename [0x61#8] = false := by decide
theorem test_wfCode : wfCode t0.mode [0x62#8] = true ∧ wfCode t0.mode [0x63#8] = false := by decide
theorem test_wfPause : wfPause [0x39#8] = true ∧ wfPause [0x41#8] = false := by decide
theorem test_wfDatemask : wfDatemask [0x37#8, 0x46#8] = true ∧ wfDatemask [0x37#8, 0x47#8] = false := by decide
theorem test_wfTime : wfTime [0x32#8, 0x34#8, 0x30#8, 0x30#8] = true ∧ wfTime [0x32#8, 0x34#8, 0x3A#8, 0x30#8] = false := by decide
/-- The text of V-ENC1 under T0, whose `FONT` code is 0x51 and `COLOR` code 0x52; a code of the wrong table; a lead byte
alone. -/
theorem test_wfText :
    wfText t0 [0xFE#8, 0x51#8, 0x48#8, 0x69#8, 0xFD#8, 0x52#8, 0x21#8] = true ∧ wfText t0 [0xFE#8, 0x52#8] = false ∧
    wfText t0 [0xFD#8, 0x51#8] = false ∧ wfText t0 [0x48#8, 0xFE#8] = false := by decide
/-- R223: none of `02`, `03`, `04`, plain or behind a lead byte. -/
theorem test_wfText_no_control :
    wfText t0 [0x03#8] = false ∧ wfText t0 [0xFE#8, 0x03#8] = false ∧ wfText t0 [0xFD#8, 0x02#8] = false ∧
    wfText t0 [0xFB#8, 0x04#8] = false ∧ wfText t0 [0xF9#8, 0x03#8] = false ∧ wfText t0 [0xFB#8, 0x31#8] = true := by decide
theorem test_wfGfxattr : wfGfxattr [0x30#8, 0x37#8, 0x2C#8, 0x30#8, 0x35#8] = true ∧ wfGfxattr [0x30#8, 0x37#8, 0x78#8, 0x30#8, 0x35#8] = false := by decide
theorem test_wfClock : wfClock [0x32#8, 0x30#8, 0x32#8, 0x34#8, 0x30#8, 0x33#8, 0x31#8, 0x35#8, 0x30#8, 0x39#8, 0x33#8, 0x30#8, 0x30#8, 0x30#8, 0x35#8] = true ∧ wfClock [0x32#8, 0x30#8, 0x32#8, 0x34#8, 0x30#8, 0x33#8, 0x31#8, 0x35#8, 0x30#8, 0x39#8, 0x33#8, 0x30#8, 0x30#8, 0x30#8] = false := by decide
theorem test_wfPassword : wfPassword [0x31#8, 0x32#8, 0x33#8, 0x34#8, 0x35#8, 0x36#8] = true ∧ wfPassword [0x31#8, 0x32#8, 0x33#8, 0x34#8, 0x35#8] = false := by decide
theorem test_wfDevnum : wfDevnum [0x46#8, 0x45#8] = true ∧ wfDevnum [0x30#8, 0x30#8] = false := by decide
theorem test_wfWindows : wfWindows [0x30#8, 0x38#8, 0x30#8, 0x30#8, 0x2C#8, 0x31#8, 0x32#8, 0x30#8, 0x30#8, 0x3B#8, 0x31#8, 0x33#8, 0x30#8, 0x30#8, 0x2C#8, 0x31#8, 0x37#8, 0x30#8, 0x30#8, 0x3B#8, 0x30#8, 0x30#8, 0x30#8, 0x30#8, 0x2C#8, 0x30#8, 0x30#8, 0x30#8, 0x30#8, 0x3B#8, 0x30#8, 0x30#8, 0x30#8, 0x30#8, 0x2C#8, 0x30#8, 0x30#8, 0x30#8, 0x30#8, 0x3B#8] = true ∧ wfWindows [0x30#8, 0x38#8, 0x30#8, 0x30#8, 0x2C#8, 0x31#8, 0x32#8, 0x30#8, 0x30#8, 0x3B#8, 0x31#8, 0x33#8, 0x30#8, 0x30#8, 0x2C#8, 0x31#8, 0x37#8, 0x30#8, 0x30#8, 0x3B#8, 0x30#8, 0x30#8, 0x30#8, 0x30#8, 0x2C#8, 0x30#8, 0x30#8, 0x30#8, 0x30#8, 0x3B#8, 0x30#8, 0x30#8, 0x30#8, 0x30#8, 0x2C#8, 0x30#8, 0x30#8, 0x30#8, 0x30#8, 0x2C#8] = false := by decide
theorem test_wfDispmode : wfDispmode [0x54#8] = true ∧ wfDispmode [0x42#8] = false := by decide
theorem test_wfOnoff : wfOnoff [0x31#8] = true ∧ wfOnoff [0x32#8] = false := by decide
theorem test_wfBright : wfBright [0x38#8] = true ∧ wfBright [0x39#8] = false := by decide

/-! ### Decoding: words written out from the layout of log 1 and the selectors of R86 -/

theorem test_decode_lookup : decodeRequest [0x00#8, 0x04#8, 0x02#8, 0x63#8, 0x31#8] = .ok (.lookup .color [0x63#8, 0x31#8]) := by decide
theorem test_decode_checksum : decodeRequest [0x10#8, 0x02#8, 0xFE#8, 0x03#8] = .ok (.checksum [0xFE#8, 0x03#8]) := by decide
theorem test_decode_buildFrame : decodeRequest [0x11#8, 0x02#8, 0xFE#8, 0x03#8] = .ok (.buildFrame [0xFE#8, 0x03#8]) := by decide
theorem test_decode_text : decodeRequest [0x25#8, 0x02#8, 0xFE#8, 0x03#8] = .ok (.text [0xFE#8, 0x03#8]) := by decide
theorem test_decode_sfClock : decodeRequest [0x32#8, 0x02#8, 0xFE#8, 0x03#8] = .ok (.sfClock [0xFE#8, 0x03#8]) := by decide
theorem test_decode_sfPassword : decodeRequest [0x34#8, 0x02#8, 0xFE#8, 0x03#8] = .ok (.sfPassword [0xFE#8, 0x03#8]) := by decide
theorem test_decode_sfDevnum : decodeRequest [0x35#8, 0x02#8, 0xFE#8, 0x03#8] = .ok (.sfDevnum [0xFE#8, 0x03#8]) := by decide
theorem test_decode_sfWindows : decodeRequest [0x36#8, 0x02#8, 0xFE#8, 0x03#8] = .ok (.sfWindows [0xFE#8, 0x03#8]) := by decide
theorem test_decode_sfDispmode : decodeRequest [0x37#8, 0x02#8, 0xFE#8, 0x03#8] = .ok (.sfDispmode [0xFE#8, 0x03#8]) := by decide
theorem test_decode_sfCuevoice : decodeRequest [0x38#8, 0x02#8, 0xFE#8, 0x03#8] = .ok (.sfCuevoice [0xFE#8, 0x03#8]) := by decide
theorem test_decode_sfPwmode : decodeRequest [0x39#8, 0x02#8, 0xFE#8, 0x03#8] = .ok (.sfPwmode [0xFE#8, 0x03#8]) := by decide
theorem test_decode_sfBright : decodeRequest [0x3A#8, 0x02#8, 0xFE#8, 0x03#8] = .ok (.sfBright [0xFE#8, 0x03#8]) := by decide
theorem test_decode_cfgSender : decodeRequest [0x40#8, 0x02#8, 0xFE#8, 0x03#8] = .ok (.cfgSender [0xFE#8, 0x03#8]) := by decide
theorem test_decode_cfgReceiver : decodeRequest [0x41#8, 0x02#8, 0xFE#8, 0x03#8] = .ok (.cfgReceiver [0xFE#8, 0x03#8]) := by decide
theorem test_decode_cfgFilename : decodeRequest [0x42#8, 0x02#8, 0xFE#8, 0x03#8] = .ok (.cfgFilename [0xFE#8, 0x03#8]) := by decide
theorem test_decode_cfgMode : decodeRequest [0x43#8, 0x02#8, 0xFE#8, 0x03#8] = .ok (.cfgMode [0xFE#8, 0x03#8]) := by decide
theorem test_decode_cfgSpeed : decodeRequest [0x44#8, 0x02#8, 0xFE#8, 0x03#8] = .ok (.cfgSpeed [0xFE#8, 0x03#8]) := by decide
theorem test_decode_cfgPause : decodeRequest [0x45#8, 0x02#8, 0xFE#8, 0x03#8] = .ok (.cfgPause [0xFE#8, 0x03#8]) := by decide
theorem test_decode_cfgDatemask : decodeRequest [0x46#8, 0x02#8, 0xFE#8, 0x03#8] = .ok (.cfgDatemask [0xFE#8, 0x03#8]) := by decide
theorem test_decode_cfgStart : decodeRequest [0x47#8, 0x02#8, 0xFE#8, 0x03#8] = .ok (.cfgStart [0xFE#8, 0x03#8]) := by decide
theorem test_decode_cfgStop : decodeRequest [0x48#8, 0x02#8, 0xFE#8, 0x03#8] = .ok (.cfgStop [0xFE#8, 0x03#8]) := by decide
theorem test_decode_cfgAlign : decodeRequest [0x49#8, 0x02#8, 0xFE#8, 0x03#8] = .ok (.cfgAlign [0xFE#8, 0x03#8]) := by decide
theorem test_decode_wrText : decodeRequest [0x20#8, 0x01#8, 0x41#8, 0x01#8, 0x58#8, 0x01#8, 0x59#8, 0x01#8, 0x35#8, 0x02#8, 0x33#8, 0x45#8, 0x04#8, 0x30#8, 0x38#8, 0x30#8, 0x30#8, 0x04#8, 0x31#8, 0x37#8, 0x33#8, 0x30#8, 0x01#8, 0x5A#8, 0x00#8] = .ok (.wrText [0x41#8] [0x58#8] [0x59#8] [0x35#8] [0x33#8, 0x45#8]
    [0x30#8, 0x38#8, 0x30#8, 0x30#8] [0x31#8, 0x37#8, 0x33#8, 0x30#8] [0x5A#8] []) := by decide
theorem test_decode_wrVar : decodeRequest [0x21#8, 0x01#8, 0x31#8, 0x01#8, 0x30#8, 0x02#8, 0x34#8, 0x32#8] = .ok (.wrVar [0x31#8] [0x30#8] [0x34#8, 0x32#8]) := by decide
theorem test_decode_wrGfx : decodeRequest [0x22#8, 0x01#8, 0x47#8, 0x05#8, 0x30#8, 0x30#8, 0x2C#8, 0x30#8, 0x30#8, 0x00#8] = .ok (.wrGfx [0x47#8] [0x30#8, 0x30#8, 0x2C#8, 0x30#8, 0x30#8] []) := by decide
theorem test_decode_wrSpecial : decodeRequest [0x23#8, 0x01#8, 0x5A#8, 0x02#8, 0x78#8, 0x79#8] = .ok (.wrSpecial [0x5A#8] [0x78#8, 0x79#8]) := by decide
theorem test_decode_rdSpecial : decodeRequest [0x24#8, 0x01#8, 0x41#8, 0x00#8] = .ok (.rdSpecial [0x41#8] []) := by decide
theorem test_decode_sfClear : decodeRequest [0x30#8] = .ok (.sfClear) := by decide
theorem test_decode_sfReset : decodeRequest [0x31#8] = .ok (.sfReset) := by decide
theorem test_decode_sfClocksync : decodeRequest [0x33#8, 0xE8#8, 0x0F#8, 0x03#8, 0x0F#8, 0x09#8, 0x1E#8, 0x00#8, 0x05#8] = .ok (.sfClocksync ⟨2024, 3, 15, 9, 30, 0, 5⟩) := by decide

/-- A length of two digits: 128 is `80 01`. -/
theorem test_decode_long : decodeRequest ([0x10#8, 0x80#8, 0x01#8] ++ List.replicate 128 0x7E#8) =
    .ok (.checksum (List.replicate 128 0x7E#8)) := by decide +kernel
/-- V-ERR10: selector 0x50 is invalid. -/
theorem test_decode_unknown : decodeRequest [0x50#8] = .error (.unknownSelector 0x50#8) := by decide
theorem test_decode_empty : decodeRequest [] = .error .noSelector := by decide
theorem test_decode_operand_short : decodeRequest [0x10#8, 0x02#8, 0x41#8] = .error .operandCutShort := by decide
theorem test_decode_number_short : decodeRequest [0x10#8, 0x80#8] = .error .numberCutShort := by decide
theorem test_decode_not_minimal : decodeRequest [0x10#8, 0x80#8, 0x00#8] = .error .numberNotMinimal := by decide
theorem test_decode_table : decodeRequest [0x00#8, 0x06#8, 0x00#8] = .error (.unknownTable 6) := by decide
theorem test_decode_time : decodeRequest [0x33#8, 0x00#8, 0x64#8, 0x00#8, 0x00#8, 0x00#8, 0x00#8, 0x00#8] =
    .error .timeOutOfRange := by decide
theorem test_decode_trailing : decodeRequest [0x30#8, 0x00#8] = .error .trailingBytes := by decide

/-- A row's operand bytes beyond the table's eight bits are zero. -/
theorem test_table_word_text : decodeTableWord 8 0x20 = some (.wrText [] [] [] [] [] [] [] [] []) := by decide
theorem test_table_word_now : decodeTableWord 8 0x33 = some (.sfClocksync ⟨0, 0, 0, 0, 0, 0, 0⟩) := by decide
/-- The step fetches and runs a table word's request as the first after reset. -/
theorem test_fetch_after_reset : step (State.reset.withFetchWord 8 0x40) = exec (.cfgSender []) State.reset := by rfl
theorem test_fetch_longest_after_reset :
    step (State.reset.withFetchWord 8 0x20) = exec (.wrText [] [] [] [] [] [] [] [] []) State.reset := by rfl

/-! ### What the operations answer -/

/-- V-CT1 -/
theorem test_lookup_auto : answer (.lookup .mode nameAuto) (st .enforce) =
    some (.code 0x61#8) := by decide
/-- V-CT5 -/
theorem test_lookup_key_of_another_table : answer (.lookup .speed nameAuto) (st .bypass) =
    some (.error (.unknownOption .speed nameAuto)) := by decide
/-- V-CK11 -/
theorem test_checksum_uppercase : answer (.checksum [0xAB#8]) (st .enforce) =
    some (.cks [0x30#8, 0x30#8, 0x41#8, 0x42#8]) := by decide
/-- V-CK9, S5 -/
theorem test_checksum_wraps : answer (.checksum (List.replicate 257 0xFF#8 ++ [0x42#8])) (st .enforce) =
    some (.cks [0x30#8, 0x30#8, 0x34#8, 0x31#8]) := by decide +kernel
/-- V-BF2 -/
theorem test_buildFrame_empty : answer (.buildFrame []) (st .enforce) =
    some (.frame [0x00#8, 0x00#8, 0x00#8, 0x00#8, 0x00#8, 0x01#8, 0x46#8, 0x46#8, 0x30#8, 0x30#8, 0x30#8, 0x30#8, 0x30#8, 0x30#8, 0x04#8]) := by decide
/-- V-BF6 -/
theorem test_buildFrame_bypass_short_sender : answer (.buildFrame [0x02#8, 0x57#8, 0x4C#8, 0x03#8]) (stAddr .bypass [0x46#8] [0x30#8, 0x30#8]) =
    some (.frame [0x00#8, 0x00#8, 0x00#8, 0x00#8, 0x00#8, 0x01#8, 0x46#8, 0x30#8, 0x30#8, 0x02#8, 0x57#8, 0x4C#8, 0x03#8, 0x30#8, 0x30#8, 0x41#8, 0x38#8, 0x04#8]) := by decide
/-- V-ENC1 -/
theorem test_wrText_copies_lead_bytes : answer (.wrText [0x41#8] [0x58#8] [0x59#8] [0x35#8] [0x33#8, 0x45#8] [0x30#8, 0x38#8, 0x30#8, 0x30#8] [0x31#8, 0x37#8, 0x33#8, 0x30#8]
    [0x5A#8] [0xFE#8, 0x51#8, 0x48#8, 0x69#8, 0xFD#8, 0x52#8, 0x21#8]) (st .enforce) =
    some (.frame [0x00#8, 0x00#8, 0x00#8, 0x00#8, 0x00#8, 0x01#8, 0x46#8, 0x46#8, 0x30#8, 0x30#8, 0x02#8, 0x41#8, 0x41#8, 0x58#8, 0x59#8, 0x35#8, 0x33#8, 0x45#8, 0x30#8, 0x38#8, 0x30#8, 0x30#8, 0x31#8, 0x37#8, 0x33#8, 0x30#8, 0x30#8, 0x30#8, 0x30#8, 0x5A#8, 0xFE#8, 0x51#8, 0x48#8, 0x69#8, 0xFD#8, 0x52#8, 0x21#8, 0x03#8, 0x30#8, 0x37#8, 0x44#8, 0x32#8, 0x04#8]) := by decide
/-- V-ENC5 -/
theorem test_wrText_first_malformed_field : answer (.wrText [] [0x61#8, 0x62#8] [0x6E#8] [0x32#8] [0x37#8, 0x46#8] [0x30#8, 0x30#8, 0x30#8, 0x30#8] [0x32#8, 0x34#8, 0x30#8, 0x30#8]
    [0x63#8] []) (st .enforce) =
    some (.error (.malformedField .filename 1 0)) := by decide
/-- V-ENC7 -/
theorem test_wrVar : answer (.wrVar [0x31#8] [0x30#8] [0x34#8, 0x32#8]) (st .enforce) =
    some (.frame [0x00#8, 0x00#8, 0x00#8, 0x00#8, 0x00#8, 0x01#8, 0x46#8, 0x46#8, 0x30#8, 0x30#8, 0x02#8, 0x43#8, 0x31#8, 0x30#8, 0x34#8, 0x32#8, 0x03#8, 0x30#8, 0x31#8, 0x30#8, 0x46#8, 0x04#8]) := by decide
/-- V-ENC9 -/
theorem test_wrVar_second_field : answer (.wrVar [0x31#8] [] []) (st .enforce) =
    some (.error (.malformedField .varAttr 1 0)) := by decide
/-- V-ENC13 -/
theorem test_wrGfx : answer (.wrGfx [0x47#8] [0x30#8, 0x37#8, 0x2C#8, 0x30#8, 0x35#8] [0x52#8, 0x52#8]) (st .enforce) =
    some (.frame [0x00#8, 0x00#8, 0x00#8, 0x00#8, 0x00#8, 0x01#8, 0x46#8, 0x46#8, 0x30#8, 0x30#8, 0x02#8, 0x45#8, 0x47#8, 0x30#8, 0x37#8, 0x2C#8, 0x30#8, 0x35#8, 0x52#8, 0x52#8, 0x03#8, 0x30#8, 0x32#8, 0x32#8, 0x44#8, 0x04#8]) := by decide
/-- V-ENC12 -/
theorem test_wrGfx_malformed : answer (.wrGfx [0x47#8] [0x37#8, 0x2C#8, 0x35#8] []) (st .enforce) =
    some (.error (.malformedField .gfxAttr 5 3)) := by decide
/-- V-ENC14 -/
theorem test_wrSpecial_unlisted_subcommand : answer (.wrSpecial [0x5A#8] [0x78#8, 0x79#8]) (st .enforce) =
    some (.frame [0x00#8, 0x00#8, 0x00#8, 0x00#8, 0x00#8, 0x01#8, 0x46#8, 0x46#8, 0x30#8, 0x30#8, 0x02#8, 0x57#8, 0x5A#8, 0x78#8, 0x79#8, 0x03#8, 0x30#8, 0x31#8, 0x41#8, 0x37#8, 0x04#8]) := by decide
/-- V-ENC16 -/
theorem test_wrSpecial_malformed : answer (.wrSpecial [] [0x78#8]) (st .enforce) =
    some (.error (.malformedField .subcommand 1 0)) := by decide
/-- V-ENC18 -/
theorem test_rdSpecial : answer (.rdSpecial [0x41#8] []) (st .enforce) =
    some (.frame [0x00#8, 0x00#8, 0x00#8, 0x00#8, 0x00#8, 0x01#8, 0x46#8, 0x46#8, 0x30#8, 0x30#8, 0x02#8, 0x52#8, 0x41#8, 0x03#8, 0x30#8, 0x30#8, 0x39#8, 0x38#8, 0x04#8]) := by decide
/-- V-ENC19 -/
theorem test_text_hello : answer (.text [0x48#8, 0x45#8, 0x4C#8, 0x4C#8, 0x4F#8]) (st .enforce) =
    some (.frame [0x00#8, 0x00#8, 0x00#8, 0x00#8, 0x00#8, 0x01#8, 0x46#8, 0x46#8, 0x30#8, 0x30#8, 0x02#8, 0x41#8, 0x30#8, 0x61#8, 0x6E#8, 0x32#8, 0x37#8, 0x46#8, 0x30#8, 0x30#8, 0x30#8, 0x30#8, 0x32#8, 0x34#8, 0x30#8, 0x30#8, 0x30#8, 0x30#8, 0x30#8, 0x63#8, 0x48#8, 0x45#8, 0x4C#8, 0x4C#8, 0x4F#8, 0x03#8, 0x30#8, 0x35#8, 0x45#8, 0x31#8, 0x04#8]) := by decide
/-- P2: `CFG_RECEIVER`, `CFG_FILENAME`, `CFG_PAUSE`, then `TEXT "HI"`. -/
theorem test_text_after_setters :
    (performAll [.cfgReceiver [0x31#8, 0x32#8], .cfgFilename [0x41#8], .cfgPause [0x35#8], .text [0x48#8, 0x49#8]]
      (st .enforce)).responses = [.ok, .ok, .ok,
    .frame [0x00#8, 0x00#8, 0x00#8, 0x00#8, 0x00#8, 0x01#8, 0x46#8, 0x46#8, 0x31#8, 0x32#8, 0x02#8, 0x41#8, 0x41#8, 0x61#8, 0x6E#8, 0x35#8, 0x37#8, 0x46#8, 0x30#8, 0x30#8, 0x30#8, 0x30#8, 0x32#8, 0x34#8, 0x30#8, 0x30#8, 0x30#8, 0x30#8, 0x30#8, 0x63#8, 0x48#8, 0x49#8, 0x03#8, 0x30#8, 0x35#8, 0x31#8, 0x32#8, 0x04#8]] := by decide
/-- V-SF1, S1 -/
theorem test_sfClear : answer (.sfClear) (st .enforce) =
    some (.frame [0x00#8, 0x00#8, 0x00#8, 0x00#8, 0x00#8, 0x01#8, 0x46#8, 0x46#8, 0x30#8, 0x30#8, 0x02#8, 0x57#8, 0x4C#8, 0x03#8, 0x30#8, 0x30#8, 0x41#8, 0x38#8, 0x04#8]) := by decide
/-- V-SF2 -/
theorem test_sfReset : answer (.sfReset) (st .bypass) =
    some (.frame [0x00#8, 0x00#8, 0x00#8, 0x00#8, 0x00#8, 0x01#8, 0x46#8, 0x46#8, 0x30#8, 0x30#8, 0x02#8, 0x57#8, 0x42#8, 0x03#8, 0x30#8, 0x30#8, 0x39#8, 0x45#8, 0x04#8]) := by decide
/-- V-SF3b, S2 -/
theorem test_sfClock_14_digits_bypass : answer (.sfClock [0x32#8, 0x30#8, 0x32#8, 0x34#8, 0x30#8, 0x33#8, 0x31#8, 0x35#8, 0x30#8, 0x39#8, 0x33#8, 0x30#8, 0x30#8, 0x30#8]) (st .bypass) =
    some (.frame [0x00#8, 0x00#8, 0x00#8, 0x00#8, 0x00#8, 0x01#8, 0x46#8, 0x46#8, 0x30#8, 0x30#8, 0x02#8, 0x57#8, 0x41#8, 0x32#8, 0x30#8, 0x32#8, 0x34#8, 0x30#8, 0x33#8, 0x31#8, 0x35#8, 0x30#8, 0x39#8, 0x33#8, 0x30#8, 0x30#8, 0x30#8, 0x03#8, 0x30#8, 0x33#8, 0x35#8, 0x41#8, 0x04#8]) := by decide
/-- V-SF3b, C1 -/
theorem test_sfClock_14_digits_enforce : answer (.sfClock [0x32#8, 0x30#8, 0x32#8, 0x34#8, 0x30#8, 0x33#8, 0x31#8, 0x35#8, 0x30#8, 0x39#8, 0x33#8, 0x30#8, 0x30#8, 0x30#8]) (st .enforce) =
    some (.error (.malformedField .clock 15 14)) := by decide
/-- V-SF4b -/
theorem test_sfClocksync_pads : answer (.sfClocksync ⟨2026, 11, 11, 8, 5, 9, 3⟩) (st .enforce) =
    some (.frame [0x00#8, 0x00#8, 0x00#8, 0x00#8, 0x00#8, 0x01#8, 0x46#8, 0x46#8, 0x30#8, 0x30#8, 0x02#8, 0x57#8, 0x41#8, 0x32#8, 0x30#8, 0x32#8, 0x36#8, 0x31#8, 0x31#8, 0x31#8, 0x31#8, 0x30#8, 0x38#8, 0x30#8, 0x35#8, 0x30#8, 0x39#8, 0x33#8, 0x03#8, 0x30#8, 0x33#8, 0x39#8, 0x34#8, 0x04#8]) := by decide
/-- V-SF4d -/
theorem test_sfClocksync_bound : answer (.sfClocksync ⟨9999, 99, 99, 99, 99, 99, 9⟩) (st .enforce) =
    some (.frame [0x00#8, 0x00#8, 0x00#8, 0x00#8, 0x00#8, 0x01#8, 0x46#8, 0x46#8, 0x30#8, 0x30#8, 0x02#8, 0x57#8, 0x41#8, 0x39#8, 0x39#8, 0x39#8, 0x39#8, 0x39#8, 0x39#8, 0x39#8, 0x39#8, 0x39#8, 0x39#8, 0x39#8, 0x39#8, 0x39#8, 0x39#8, 0x39#8, 0x03#8, 0x30#8, 0x33#8, 0x46#8, 0x34#8, 0x04#8]) := by decide
/-- V-SF5a -/
theorem test_sfPassword : answer (.sfPassword [0x31#8, 0x32#8, 0x33#8, 0x34#8, 0x35#8, 0x36#8]) (st .enforce) =
    some (.frame [0x00#8, 0x00#8, 0x00#8, 0x00#8, 0x00#8, 0x01#8, 0x46#8, 0x46#8, 0x30#8, 0x30#8, 0x02#8, 0x57#8, 0x43#8, 0x31#8, 0x32#8, 0x33#8, 0x34#8, 0x35#8, 0x36#8, 0x03#8, 0x30#8, 0x31#8, 0x44#8, 0x34#8, 0x04#8]) := by decide
/-- V-SF5b -/
theorem test_sfPassword_short : answer (.sfPassword [0x31#8, 0x32#8, 0x33#8, 0x34#8, 0x35#8]) (st .enforce) =
    some (.error (.malformedField .password 6 5)) := by decide
/-- V-SF6c -/
theorem test_sfDevnum_outside_its_range : answer (.sfDevnum [0x30#8, 0x30#8]) (st .enforce) =
    some (.frame [0x00#8, 0x00#8, 0x00#8, 0x00#8, 0x00#8, 0x01#8, 0x46#8, 0x46#8, 0x30#8, 0x30#8, 0x02#8, 0x57#8, 0x44#8, 0x30#8, 0x30#8, 0x03#8, 0x30#8, 0x31#8, 0x30#8, 0x30#8, 0x04#8]) := by decide
/-- V-SF6d -/
theorem test_sfDevnum_raw_byte : answer (.sfDevnum [0x05#8]) (st .enforce) =
    some (.error (.malformedField .deviceNumber 2 1)) := by decide
/-- V-SF7b -/
theorem test_sfWindows : answer (.sfWindows [0x30#8, 0x38#8, 0x30#8, 0x30#8, 0x2C#8, 0x31#8, 0x32#8, 0x30#8, 0x30#8, 0x3B#8, 0x31#8, 0x33#8, 0x30#8, 0x30#8, 0x2C#8, 0x31#8, 0x37#8, 0x30#8, 0x30#8, 0x3B#8, 0x30#8, 0x30#8, 0x30#8, 0x30#8, 0x2C#8, 0x30#8, 0x30#8, 0x30#8, 0x30#8, 0x3B#8, 0x30#8, 0x30#8, 0x30#8, 0x30#8, 0x2C#8, 0x30#8, 0x30#8, 0x30#8, 0x30#8, 0x3B#8]) (st .enforce) =
    some (.frame [0x00#8, 0x00#8, 0x00#8, 0x00#8, 0x00#8, 0x01#8, 0x46#8, 0x46#8, 0x30#8, 0x30#8, 0x02#8, 0x57#8, 0x45#8, 0x30#8, 0x38#8, 0x30#8, 0x30#8, 0x2C#8, 0x31#8, 0x32#8, 0x30#8, 0x30#8, 0x3B#8, 0x31#8, 0x33#8, 0x30#8, 0x30#8, 0x2C#8, 0x31#8, 0x37#8, 0x30#8, 0x30#8, 0x3B#8, 0x30#8, 0x30#8, 0x30#8, 0x30#8, 0x2C#8, 0x30#8, 0x30#8, 0x30#8, 0x30#8, 0x3B#8, 0x30#8, 0x30#8, 0x30#8, 0x30#8, 0x2C#8, 0x30#8, 0x30#8, 0x30#8, 0x30#8, 0x3B#8, 0x03#8, 0x30#8, 0x38#8, 0x35#8, 0x34#8, 0x04#8]) := by decide
/-- V-SF7c -/
theorem test_sfWindows_short : answer (.sfWindows [0x30#8, 0x30#8, 0x30#8, 0x30#8, 0x2C#8, 0x32#8, 0x34#8, 0x30#8, 0x30#8, 0x3B#8]) (st .enforce) =
    some (.error (.malformedField .windows 40 10)) := by decide
/-- V-SF8a -/
theorem test_sfDispmode : answer (.sfDispmode [0x54#8]) (st .enforce) =
    some (.frame [0x00#8, 0x00#8, 0x00#8, 0x00#8, 0x00#8, 0x01#8, 0x46#8, 0x46#8, 0x30#8, 0x30#8, 0x02#8, 0x57#8, 0x46#8, 0x54#8, 0x03#8, 0x30#8, 0x30#8, 0x46#8, 0x36#8, 0x04#8]) := by decide
/-- V-SF9a -/
theorem test_sfCuevoice : answer (.sfCuevoice [0x31#8]) (st .enforce) =
    some (.frame [0x00#8, 0x00#8, 0x00#8, 0x00#8, 0x00#8, 0x01#8, 0x46#8, 0x46#8, 0x30#8, 0x30#8, 0x02#8, 0x57#8, 0x4A#8, 0x31#8, 0x03#8, 0x30#8, 0x30#8, 0x44#8, 0x37#8, 0x04#8]) := by decide
/-- V-SF10b -/
theorem test_sfPwmode : answer (.sfPwmode [0x30#8]) (st .enforce) =
    some (.frame [0x00#8, 0x00#8, 0x00#8, 0x00#8, 0x00#8, 0x01#8, 0x46#8, 0x46#8, 0x30#8, 0x30#8, 0x02#8, 0x57#8, 0x4B#8, 0x30#8, 0x03#8, 0x30#8, 0x30#8, 0x44#8, 0x37#8, 0x04#8]) := by decide
/-- V-SF11f -/
theorem test_sfBright_two_bytes_bypass : answer (.sfBright [0x31#8, 0x30#8]) (st .bypass) =
    some (.frame [0x00#8, 0x00#8, 0x00#8, 0x00#8, 0x00#8, 0x01#8, 0x46#8, 0x46#8, 0x30#8, 0x30#8, 0x02#8, 0x57#8, 0x50#8, 0x31#8, 0x30#8, 0x03#8, 0x30#8, 0x31#8, 0x30#8, 0x44#8, 0x04#8]) := by decide
/-- V-ERR2 -/
theorem test_sfBright_own_operand_before_addresses : answer (.sfBright [0x31#8, 0x30#8]) (stAddr .enforce [0x46#8, 0x46#8] [0x31#8]) =
    some (.error (.malformedField .brightness 1 2)) := by decide
/-- V-ERR3 -/
theorem test_sfBright_receiver : answer (.sfBright [0x35#8]) (stAddr .enforce [0x46#8, 0x46#8] [0x31#8]) =
    some (.error (.malformedField .receiverAddress 2 1)) := by decide
/-- V-CFG12 -/
theorem test_cfgSender : answer (.cfgSender [0x41#8, 0x42#8, 0x43#8]) (st .enforce) = some .ok ∧
    leaves (.cfgSender [0x41#8, 0x42#8, 0x43#8]) (st .enforce) = some { (st .enforce).session with senderAddress := [0x41#8, 0x42#8, 0x43#8] } := by decide
/-- V-CFG2 -/
theorem test_cfgReceiver : answer (.cfgReceiver [0x31#8, 0x32#8]) (st .enforce) = some .ok ∧
    leaves (.cfgReceiver [0x31#8, 0x32#8]) (st .enforce) = some { (st .enforce).session with receiverAddress := [0x31#8, 0x32#8] } := by decide
/-- V-CFG3 -/
theorem test_cfgFilename : answer (.cfgFilename [0x41#8]) (st .enforce) = some .ok ∧
    leaves (.cfgFilename [0x41#8]) (st .enforce) = some { (st .enforce).session with filename := [0x41#8] } := by decide
/-- V-CFG13 -/
theorem test_cfgMode : answer (.cfgMode [0x3F#8]) (st .enforce) = some .ok ∧
    leaves (.cfgMode [0x3F#8]) (st .enforce) = some { (st .enforce).session with displayMode := [0x3F#8] } := by decide
/-- V-CFG5 -/
theorem test_cfgSpeed : answer (.cfgSpeed [0x66#8]) (st .enforce) = some .ok ∧
    leaves (.cfgSpeed [0x66#8]) (st .enforce) = some { (st .enforce).session with displaySpeed := [0x66#8] } := by decide
/-- V-CFG11 -/
theorem test_cfgPause : answer (.cfgPause []) (st .enforce) = some .ok ∧
    leaves (.cfgPause []) (st .enforce) = some { (st .enforce).session with pauseTime := [] } := by decide
/-- V-CFG7 -/
theorem test_cfgDatemask : answer (.cfgDatemask [0x33#8, 0x45#8]) (st .enforce) = some .ok ∧
    leaves (.cfgDatemask [0x33#8, 0x45#8]) (st .enforce) = some { (st .enforce).session with showDateMask := [0x33#8, 0x45#8] } := by decide
/-- V-CFG8 -/
theorem test_cfgStart : answer (.cfgStart [0x30#8, 0x38#8, 0x30#8, 0x30#8]) (st .enforce) = some .ok ∧
    leaves (.cfgStart [0x30#8, 0x38#8, 0x30#8, 0x30#8]) (st .enforce) = some { (st .enforce).session with startTime := [0x30#8, 0x38#8, 0x30#8, 0x30#8] } := by decide
/-- V-CFG9 -/
theorem test_cfgStop : answer (.cfgStop [0x31#8, 0x37#8, 0x33#8, 0x30#8]) (st .enforce) = some .ok ∧
    leaves (.cfgStop [0x31#8, 0x37#8, 0x33#8, 0x30#8]) (st .enforce) = some { (st .enforce).session with stopTime := [0x31#8, 0x37#8, 0x33#8, 0x30#8] } := by decide
/-- V-CFG10 -/
theorem test_cfgAlign : answer (.cfgAlign [0x6C#8]) (st .enforce) = some .ok ∧
    leaves (.cfgAlign [0x6C#8]) (st .enforce) = some { (st .enforce).session with align := [0x6C#8] } := by decide

/-! ### Witnesses: each statement's hypotheses are met, all together, in every clause that has its own -/

/-- The first clause of `BuildsFrame`, under `ENFORCE`. -/
abbrev NominalCase (s : State) (own : List Check) : Prop :=
  s.config.validate = .enforce ∧ ∀ c ∈ own ++ addressChecks s.session, c.Nominal
/-- The first clause of `BuildsFrame`, under `BYPASS` with some field that is not nominal. -/
abbrev BypassCase (s : State) (own : List Check) : Prop :=
  s.config.validate = .bypass ∧ ¬ ∀ c ∈ own ++ addressChecks s.session, c.Nominal
/-- The second clause of `BuildsFrame`. -/
abbrev MalformedCase (s : State) (own before : List Check) (c : Check) (after : List Check) : Prop :=
  s.config.validate = .enforce ∧ own ++ addressChecks s.session = before ++ c :: after ∧ (∀ d ∈ before, d.Nominal) ∧
  ¬ c.Nominal

/-- The session of `st`'s last-address error: a good sender, a receiver of one byte. -/
def badReceiver : State := stAddr .enforce [0x46#8, 0x46#8] [0x31#8]

/-- A text whose fields are nominal, one whose last checked field is not, and a session to go with it. -/
def goodText : List Check := textChecks [0x30#8] [0x61#8] [0x6E#8] [0x32#8] [0x37#8, 0x46#8]
  [0x30#8, 0x30#8, 0x30#8, 0x30#8] [0x32#8, 0x34#8, 0x30#8, 0x30#8] [0x63#8]
def badText : List Check := textChecks [0x30#8] [0x61#8] [0x6E#8] [0x32#8] [0x37#8, 0x46#8]
  [0x30#8, 0x30#8, 0x30#8, 0x30#8] [0x32#8, 0x34#8, 0x30#8, 0x30#8] []

theorem witness_DecodeReadsBackEveryEncodedRequest :
    (Instr.sfClocksync ⟨9999, 99, 99, 99, 99, 99, 9⟩).wellFormed = true := by decide
theorem witness_EveryAcceptedRequestIsItsEncoding :
    decodeRequest [0x3A#8, 0x01#8, 0x35#8] = .ok (.sfBright [0x35#8]) := by decide
theorem witness_KnownSelectorsAreThoseOfTheOperationMap :
    (0x49#8 : Byte).toNat ∈ [0x00, 0x10, 0x11, 0x20, 0x21, 0x22, 0x23, 0x24, 0x25, 0x30, 0x31, 0x32, 0x33, 0x34, 0x35,
      0x36, 0x37, 0x38, 0x39, 0x3A, 0x40, 0x41, 0x42, 0x43, 0x44, 0x45, 0x46, 0x47, 0x48, 0x49] ∧
     (0x4A#8 : Byte).toNat ∉ [0x00, 0x10, 0x11, 0x20, 0x21, 0x22, 0x23, 0x24,
      0x25, 0x30, 0x31, 0x32, 0x33, 0x34, 0x35, 0x36, 0x37, 0x38, 0x39, 0x3A, 0x40, 0x41, 0x42, 0x43, 0x44, 0x45, 0x46,
      0x47, 0x48, 0x49] := by decide
theorem witness_StepRunsTheFirstPendingRequest :
    ((st .enforce).submit [0x30#8]).pending = [0x30#8] :: [] ∧ decodeRequest [0x30#8] = .ok .sfClear := by decide
theorem witness_StepRefusesBytesThatAreNoRequest :
    ((st .enforce).submit [0x50#8]).pending = [0x50#8] :: [] ∧
    decodeRequest [0x50#8] = .error (.unknownSelector 0x50#8) := by decide
theorem witness_IdleBlockHoldsItsState :
    (st .enforce).pending = [] := by decide
theorem witness_LookupOfAKeyAnswersItsCode :
    (st .bypass).config.tables.Admissible ∧ (nameCenter, 0x63#8) ∈ (st .bypass).config.tables.table .align := by decide
theorem witness_LookupOfAnUnknownNameIsAnError :
    ¬ ((st .enforce).config.tables.table .color).HasKey nameAuto ∧ ¬ ((st .bypass).config.tables.table .symbol).HasKey [] := by decide
theorem witness_LookupIsInjective :
    (st .enforce).config.tables.Admissible ∧ Responds (.lookup .mode nameAuto) (st .enforce) (.code 0x61#8) := ⟨by decide, _, rfl, rfl⟩
theorem witness_ChecksumIsFourUppercaseHexDigits :
    byteSum (List.replicate 257 0xFF#8) ≤ 0xFFFF := by decide +kernel
theorem witness_ChecksumIgnoresByteOrder :
    ([0x02#8, 0x57#8, 0x4C#8, 0x03#8] : Bytes).Perm [0x03#8, 0x4C#8, 0x57#8, 0x02#8] ∧
    Answers (.checksum [0x02#8, 0x57#8, 0x4C#8, 0x03#8]) (st .enforce) (.cks [0x30#8, 0x30#8, 0x41#8, 0x38#8]) := ⟨by decide, rfl⟩
theorem witness_ChecksumDoesNotWrapUpTo257Bytes :
    (List.replicate 257 0xFF#8 : Bytes).length ≤ 257 := by decide +kernel
theorem witness_BuildFrameWrapsAnyBody :
    NominalCase (st .enforce) [] ∧ BypassCase (stAddr .bypass [0x46#8] []) [] ∧
    MalformedCase badReceiver [] [⟨.senderAddress, 2, [0x46#8, 0x46#8]⟩] ⟨.receiverAddress, 2, [0x31#8]⟩ [] := by decide
theorem witness_EveryFrameHasTheFrameMap :
    Responds (.buildFrame []) (stAddr .bypass [0x46#8] []) (.frame [0x00#8, 0x00#8, 0x00#8, 0x00#8, 0x00#8, 0x01#8, 0x46#8,
      0x30#8, 0x30#8, 0x30#8, 0x30#8, 0x04#8]) := ⟨_, rfl, rfl⟩
theorem witness_FramePartsAreFoundFromTheEnd :
    Responds .sfClear (st .enforce) (.frame (env ++ [0x02#8, 0x57#8, 0x4C#8, 0x03#8, 0x30#8, 0x30#8, 0x41#8, 0x38#8, 0x04#8])) ∧
    (st .enforce).session.senderAddress.length = 2 ∧ (st .enforce).session.receiverAddress.length = 2 ∧
    commandCode .sfClear ≠ none := ⟨⟨_, rfl, rfl⟩, by decide⟩
theorem witness_EveryBodyCarriesItsCommandCode :
    Responds (.rdSpecial [0x41#8] []) (st .enforce) (.frame (env ++ [0x02#8, 0x52#8, 0x41#8, 0x03#8, 0x30#8, 0x30#8, 0x39#8,
      0x38#8, 0x04#8])) ∧ (st .enforce).session.senderAddress.length = 2 ∧
    (st .enforce).session.receiverAddress.length = 2 ∧ commandCode (.rdSpecial [0x41#8] []) = some 0x52#8 := ⟨⟨_, rfl, rfl⟩, by decide⟩
theorem witness_ChecksumCoversTheBodyOnly :
    Responds (.buildFrame ([0x02#8] ++ [0x57#8, 0x4C#8] ++ [0x03#8])) (st .enforce)
      (.frame (env ++ [0x02#8, 0x57#8, 0x4C#8, 0x03#8, 0x30#8, 0x30#8, 0x41#8, 0x38#8, 0x04#8])) ∧
    Responds (.buildFrame ([0x02#8] ++ [0x57#8, 0x4C#8] ++ [0x03#8])) (stAddr .bypass [] [0x31#8])
      (.frame [0x00#8, 0x00#8, 0x00#8, 0x00#8, 0x00#8, 0x01#8, 0x31#8, 0x02#8, 0x57#8, 0x4C#8, 0x03#8, 0x30#8, 0x30#8, 0x41#8,
        0x38#8, 0x04#8]) ∧ 5 + byteSum [0x57#8, 0x4C#8] ≤ 0xFFFF := ⟨⟨_, rfl, rfl⟩, ⟨_, rfl, rfl⟩, by decide⟩
theorem witness_FrameLengthIsTheSumOfItsParts :
    Responds .sfReset (st .enforce) (.frame (env ++ [0x02#8, 0x57#8, 0x42#8, 0x03#8, 0x30#8, 0x30#8, 0x39#8, 0x45#8, 0x04#8])) ∧
    bodyLength .sfReset (st .enforce).session = some 4 := ⟨⟨_, rfl, rfl⟩, rfl⟩
theorem witness_WriteTextBuildsItsFrame :
    NominalCase (st .enforce) goodText ∧ BypassCase (st .bypass) badText ∧
    MalformedCase (st .enforce) badText (badText.take 7) ⟨.align, 1, []⟩ (addressChecks (st .enforce).session) := by decide
/-- The checks of `TEXT` in a state. -/
abbrev registerChecks (x : Session) : List Check :=
  textChecks x.filename x.displayMode x.displaySpeed x.pauseTime x.showDateMask x.startTime x.stopTime x.align
theorem witness_TextBuildsTheFrameOfTheSession :
    NominalCase (st .enforce) (registerChecks (st .enforce).session) ∧
    BypassCase (perform (.cfgPause []) (st .bypass)) (registerChecks (perform (.cfgPause []) (st .bypass)).session) ∧
    MalformedCase (perform (.cfgPause []) (st .enforce)) (registerChecks (perform (.cfgPause []) (st .enforce)).session)
      ((registerChecks (st .enforce).session).take 3) ⟨.pauseTime, 1, []⟩
      ((registerChecks (st .enforce).session).drop 4 ++ addressChecks (st .enforce).session) := by decide
theorem witness_WriteVariableBuildsItsFrame :
    NominalCase (st .enforce) [⟨.variableCode, 1, [0x31#8]⟩, ⟨.varAttr, 1, [0x30#8]⟩] ∧
    BypassCase (st .bypass) [⟨.variableCode, 1, []⟩, ⟨.varAttr, 1, [0x30#8]⟩] ∧
    MalformedCase (st .enforce) [⟨.variableCode, 1, [0x31#8]⟩, ⟨.varAttr, 1, []⟩] [⟨.variableCode, 1, [0x31#8]⟩]
      ⟨.varAttr, 1, []⟩ (addressChecks (st .enforce).session) := by decide
theorem witness_WriteGraphicsBuildsItsFrame :
    NominalCase (st .enforce) [⟨.filename, 1, [0x47#8]⟩, ⟨.gfxAttr, 5, [0x30#8, 0x30#8, 0x2C#8, 0x30#8, 0x30#8]⟩] ∧
    BypassCase (st .bypass) [⟨.filename, 1, []⟩, ⟨.gfxAttr, 5, []⟩] ∧
    MalformedCase (st .enforce) [⟨.filename, 1, [0x47#8]⟩, ⟨.gfxAttr, 5, []⟩] [⟨.filename, 1, [0x47#8]⟩] ⟨.gfxAttr, 5, []⟩
      (addressChecks (st .enforce).session) := by decide
theorem witness_SpecialEncodersBuildTheirFrames :
    NominalCase (st .enforce) [⟨.subcommand, 1, [0x41#8]⟩] ∧ BypassCase (st .bypass) [⟨.subcommand, 1, []⟩] ∧
    MalformedCase (st .enforce) [⟨.subcommand, 1, []⟩] [] ⟨.subcommand, 1, []⟩ (addressChecks (st .enforce).session) := by decide
theorem witness_WriteTextFrameHasTheLayoutOfItsTable :
    (∀ c ∈ goodText ++ addressChecks (st .enforce).session, c.Nominal) ∧
    Responds (.wrText [0x30#8] [0x61#8] [0x6E#8] [0x32#8] [0x37#8, 0x46#8] [0x30#8, 0x30#8, 0x30#8, 0x30#8]
        [0x32#8, 0x34#8, 0x30#8, 0x30#8] [0x63#8] []) (st .enforce)
      (.frame (env ++ [0x02#8, 0x41#8, 0x30#8, 0x61#8, 0x6E#8, 0x32#8, 0x37#8, 0x46#8, 0x30#8, 0x30#8, 0x30#8, 0x30#8, 0x32#8,
        0x34#8, 0x30#8, 0x30#8, 0x30#8, 0x30#8, 0x30#8, 0x63#8, 0x03#8, 0x30#8, 0x34#8, 0x36#8, 0x44#8, 0x04#8])) := ⟨by decide, _, rfl, rfl⟩
theorem witness_WellFormedTextIsFoundByScanningToEtx :
    wfText t0 [0xFE#8, 0x51#8, 0x48#8, 0x69#8, 0xFD#8, 0x52#8, 0x21#8] = true ∧
    wfText (st .enforce).config.tables [0xFE#8, 0x51#8] = true ∧ (0x03#8 : Byte) ∈ [0x41#8, 0x03#8, 0x42#8] ∧
    (∀ c ∈ goodText ++ addressChecks (st .enforce).session, c.Nominal) ∧
    (∃ f, Responds (.wrText [0x30#8] [0x61#8] [0x6E#8] [0x32#8] [0x37#8, 0x46#8] [0x30#8, 0x30#8, 0x30#8, 0x30#8]
        [0x32#8, 0x34#8, 0x30#8, 0x30#8] [0x63#8] [0xFE#8, 0x51#8]) (st .enforce) (.frame f)) ∧
    ∃ f, Responds (.wrText [0x30#8] [0x61#8] [0x6E#8] [0x32#8] [0x37#8, 0x46#8] [0x30#8, 0x30#8, 0x30#8, 0x30#8]
        [0x32#8, 0x34#8, 0x30#8, 0x30#8] [0x63#8] [0x41#8, 0x03#8, 0x42#8]) (st .enforce) (.frame f) :=
  ⟨by decide, by decide, by decide, by decide, ⟨_, _, rfl, rfl⟩, ⟨_, _, rfl, rfl⟩⟩
theorem witness_GraphicsAndSpecialFramesHaveTheirLayouts :
    (∀ c ∈ addressChecks (st .enforce).session, c.Nominal) ∧
    Responds (.wrGfx [0x47#8] [0x30#8, 0x30#8, 0x2C#8, 0x30#8, 0x30#8] []) (st .enforce)
      (.frame (env ++ [0x02#8, 0x45#8, 0x47#8, 0x30#8, 0x30#8, 0x2C#8, 0x30#8, 0x30#8, 0x03#8, 0x30#8, 0x31#8, 0x37#8, 0x44#8,
        0x04#8])) ∧
    Responds (.wrSpecial [0x4C#8] []) (st .enforce)
      (.frame (env ++ [0x02#8, 0x57#8, 0x4C#8, 0x03#8, 0x30#8, 0x30#8, 0x41#8, 0x38#8, 0x04#8])) ∧
    Responds (.rdSpecial [0x4C#8] []) (st .enforce)
      (.frame (env ++ [0x02#8, 0x52#8, 0x4C#8, 0x03#8, 0x30#8, 0x30#8, 0x41#8, 0x33#8, 0x04#8])) := ⟨by decide, ⟨_, rfl, rfl⟩, ⟨_, rfl, rfl⟩, _, rfl, rfl⟩
theorem witness_ClearAndResetBuildTheirConstantFrames :
    (stAddr .bypass [] []).config.validate = .bypass ∧
    ((st .enforce).session.senderAddress.length = 2 ∧ (st .enforce).session.receiverAddress.length = 2) ∧
    ((stAddr .enforce [0x46#8] []).config.validate = .enforce ∧ (stAddr .enforce [0x46#8] []).session.senderAddress.length ≠ 2) ∧
    (badReceiver.config.validate = .enforce ∧ badReceiver.session.senderAddress.length = 2 ∧
      badReceiver.session.receiverAddress.length ≠ 2) := by decide
theorem witness_PayloadFunctionsBuildTheirFrames_nominal :
    NominalCase (st .enforce) [⟨.clock, 15, List.replicate 15 0x31#8⟩] ∧
    NominalCase (st .enforce) [⟨.password, 6, List.replicate 6 0x31#8⟩] ∧
    NominalCase (st .enforce) [⟨.deviceNumber, 2, List.replicate 2 0x31#8⟩] ∧
    NominalCase (st .enforce) [⟨.windows, 40, List.replicate 40 0x31#8⟩] ∧
    NominalCase (st .enforce) [⟨.sfDisplayMode, 1, List.replicate 1 0x31#8⟩] ∧
    NominalCase (st .enforce) [⟨.cueVoice, 1, List.replicate 1 0x31#8⟩] ∧
    NominalCase (st .enforce) [⟨.passwordMode, 1, List.replicate 1 0x31#8⟩] ∧
    NominalCase (st .enforce) [⟨.brightness, 1, List.replicate 1 0x31#8⟩] := by decide
theorem witness_PayloadFunctionsBuildTheirFrames_bypass :
    BypassCase (st .bypass) [⟨.clock, 15, List.replicate 16 0x31#8⟩] ∧
    BypassCase (st .bypass) [⟨.password, 6, List.replicate 7 0x31#8⟩] ∧
    BypassCase (st .bypass) [⟨.deviceNumber, 2, List.replicate 3 0x31#8⟩] ∧
    BypassCase (st .bypass) [⟨.windows, 40, List.replicate 41 0x31#8⟩] ∧
    BypassCase (st .bypass) [⟨.sfDisplayMode, 1, List.replicate 2 0x31#8⟩] ∧
    BypassCase (st .bypass) [⟨.cueVoice, 1, List.replicate 2 0x31#8⟩] ∧
    BypassCase (st .bypass) [⟨.passwordMode, 1, List.replicate 2 0x31#8⟩] ∧
    BypassCase (st .bypass) [⟨.brightness, 1, List.replicate 2 0x31#8⟩] := by decide
theorem witness_PayloadFunctionsBuildTheirFrames_malformed :
    MalformedCase (st .enforce) [⟨.clock, 15, List.replicate 14 0x31#8⟩] [] ⟨.clock, 15, List.replicate 14 0x31#8⟩
      (addressChecks (st .enforce).session) ∧
    MalformedCase (st .enforce) [⟨.password, 6, List.replicate 5 0x31#8⟩] [] ⟨.password, 6, List.replicate 5 0x31#8⟩
      (addressChecks (st .enforce).session) ∧
    MalformedCase (st .enforce) [⟨.deviceNumber, 2, List.replicate 1 0x31#8⟩] [] ⟨.deviceNumber, 2, List.replicate 1 0x31#8⟩
      (addressChecks (st .enforce).session) ∧
    MalformedCase (st .enforce) [⟨.windows, 40, List.replicate 39 0x31#8⟩] [] ⟨.windows, 40, List.replicate 39 0x31#8⟩
      (addressChecks (st .enforce).session) ∧
    MalformedCase (st .enforce) [⟨.sfDisplayMode, 1, List.replicate 0 0x31#8⟩] [] ⟨.sfDisplayMode, 1, List.replicate 0 0x31#8⟩
      (addressChecks (st .enforce).session) ∧
    MalformedCase (st .enforce) [⟨.cueVoice, 1, List.replicate 0 0x31#8⟩] [] ⟨.cueVoice, 1, List.replicate 0 0x31#8⟩
      (addressChecks (st .enforce).session) ∧
    MalformedCase (st .enforce) [⟨.passwordMode, 1, List.replicate 0 0x31#8⟩] [] ⟨.passwordMode, 1, List.replicate 0 0x31#8⟩
      (addressChecks (st .enforce).session) ∧
    MalformedCase (st .enforce) [⟨.brightness, 1, List.replicate 0 0x31#8⟩] [] ⟨.brightness, 1, List.replicate 0 0x31#8⟩
      (addressChecks (st .enforce).session) := by decide
theorem witness_ClockSyncSpellsTheTime :
    (⟨9999, 99, 99, 99, 99, 99, 9⟩ : Now).inBounds = true ∧ NominalCase (st .enforce) [] ∧
    BypassCase (stAddr .bypass [] []) [] ∧
    MalformedCase (stAddr .enforce [] []) [] [] ⟨.senderAddress, 2, []⟩ [⟨.receiverAddress, 2, []⟩] := by decide
theorem witness_TimeOutOfBoundsIsNoRequest :
    (⟨0, 0, 0, 0, 0, 0, 10⟩ : Now).inBounds = false := by decide
theorem witness_SpecialFunctionsAreWriteSpecial :
    (⟨0, 0, 0, 0, 0, 0, 0⟩ : Now).inBounds = true ∧ (st .bypass).config.validate = .bypass ∧
    (List.replicate 15 0x31#8 : Bytes).length = 15 ∧ (List.replicate 6 0x31#8 : Bytes).length = 6 ∧
    ([0x30#8, 0x31#8] : Bytes).length = 2 ∧ (List.replicate 40 0x31#8 : Bytes).length = 40 ∧ ([0x31#8] : Bytes).length = 1 := by decide
theorem witness_InterveningSetterRedirectsTheFrame :
    (st .enforce).session.senderAddress.length = 2 ∧ ([0x30#8, 0x32#8] : Bytes).length = 2 := by decide
theorem witness_EveryRequestEndsWithOneResponse :
    (Instr.sfClocksync ⟨0, 0, 0, 0, 0, 0, 0⟩).wellFormed = true := by decide
theorem witness_OnlyItsSetterWritesARegister :
    (∃ t, exec (.cfgAlign [0x5A#8]) (st .enforce) = .next t) ∧ setting (.cfgAlign [0x5A#8]) = some (.align, [0x5A#8]) ∧
    ∀ v, setting (.cfgAlign [0x5A#8]) ≠ some (.filename, v) := ⟨⟨_, rfl⟩, rfl, fun v h => by cases h⟩
theorem witness_ErrorsChangeNothing :
    ∃ t, exec (.sfBright []) (st .enforce) = .next t ∧
    t.responses = (st .enforce).responses ++ [.error (.malformedField .brightness 1 0)] := ⟨_, rfl, rfl⟩
theorem witness_EachErrorHasItsOperationAndCause :
    Responds (.sfBright []) (st .enforce) (.error (.malformedField .brightness 1 0)) ∧
    Responds (.lookup .mode []) (st .bypass) (.error (.unknownOption .mode [])) := ⟨⟨_, rfl, rfl⟩, _, rfl, rfl⟩
theorem witness_BypassAlwaysBuildsTheFrame :
    (st .bypass).config.validate = .bypass ∧ (Instr.sfBright []).wellFormed = true ∧
    bodyLength (.sfBright []) (st .bypass).session = some 4 := by decide
theorem witness_EnforcedFramesHaveNominalFields :
    (st .enforce).config.validate = .enforce ∧ (Instr.sfBright [0x35#8]).wellFormed = true ∧
    allChecks (.sfBright [0x35#8]) (st .enforce).session =
      some [⟨.brightness, 1, [0x35#8]⟩, ⟨.senderAddress, 2, [0x46#8, 0x46#8]⟩, ⟨.receiverAddress, 2, [0x30#8, 0x30#8]⟩] := by decide
theorem witness_NoHiddenState :
    ∃ t, (st .enforce).session = ((st .enforce).submit [0x30#8]).session ∧
    (st .enforce).config = ((st .enforce).submit [0x30#8]).config ∧ exec (.cfgPause [0x35#8]) (st .enforce) = .next t := ⟨_, rfl, rfl, rfl⟩
theorem witness_OnlyTextReadsTheTextRegisters :
    (∀ td, Instr.sfClear ≠ .text td) ∧
    (st .enforce).session.senderAddress = (perform (.cfgPause []) (st .enforce)).session.senderAddress ∧
    (st .enforce).session.receiverAddress = (perform (.cfgPause []) (st .enforce)).session.receiverAddress ∧
    (st .enforce).config = (perform (.cfgPause []) (st .enforce)).config ∧
    Responds .sfClear (st .enforce) (.frame (env ++ [0x02#8, 0x57#8, 0x4C#8, 0x03#8, 0x30#8, 0x30#8, 0x41#8, 0x38#8, 0x04#8])) := ⟨fun _ => nofun, rfl, rfl, rfl, _, rfl, rfl⟩
theorem witness_MalformedAddressBlocksEveryFrame :
    badReceiver.config.validate = .enforce ∧ (Instr.sfClear).wellFormed = true ∧ ownChecks .sfClear badReceiver.session = some [] ∧
    badReceiver.session.receiverAddress.length ≠ 2 ∧ (stAddr .enforce [] []).session.senderAddress.length ≠ 2 := by decide
theorem witness_ResetGivesEveryRegisterItsValue :
    t0.Admissible := by decide
theorem witness_NominalSessionsStayNominal :
    t0.Admissible ∧ ([0x46#8, 0x46#8] : Bytes).length = 2 ∧ ([0x30#8] : Bytes).length = 1 ∧ NominalSession (st .enforce).session ∧
    (∃ t, exec (.cfgStop [0x31#8, 0x37#8, 0x33#8, 0x30#8]) (st .enforce) = .next t) ∧
    ∀ r v, setting (.cfgStop [0x31#8, 0x37#8, 0x33#8, 0x30#8]) = some (r, v) → v.length = r.width := ⟨by decide, rfl, rfl, by decide, ⟨_, rfl⟩, fun r v h => by cases h; rfl⟩
theorem witness_EveryStepKeepsSafety :
    ∃ t, Inv ((st .enforce).submit [0x30#8]) ∧ step ((st .enforce).submit [0x30#8]) = .next t := ⟨_, ⟨by decide, fun r h => by cases h⟩, rfl⟩
theorem witness_RunPerformsRequestsInArrivalOrder :
    (∀ i ∈ [Instr.cfgReceiver [0x30#8, 0x31#8], .sfClear], i.wellFormed = true) ∧
    (((st .enforce).submit [0x41#8, 0x02#8, 0x30#8, 0x31#8]).submit [0x30#8]).pending =
      [Instr.cfgReceiver [0x30#8, 0x31#8], .sfClear].map encode := by decide

end Sys2Proof.Tests
end

section
/-! SUPPORT and PROOFS. What one operation does, said once for all thirty (R86), and from it: one response for every
request (R18, R227), and the invariant of safe states (R9, R54, R110, R180 to R186). -/

namespace Sys2Proof.Machine

open Sys2Proof.Safety

/-! ### What one operation does -/

/-- The eight fields that `WR_TEXT` and `TEXT` check, in body order (R121). -/
def textFields (fn dm ds pt md st sp al : Bytes) : List (Field × Bytes) :=
  [(.filename, fn), (.displayMode, dm), (.displaySpeed, ds), (.pauseTime, pt), (.showDateMask, md), (.startTime, st),
   (.stopTime, sp), (.align, al)]

/-- The fields a frame-building operation checks before the addresses, and the body it builds (R120, R140); `none` for
an operation that builds no frame. `exec_of_frameParts` ties it to `exec`. -/
def frameParts : Instr → Session → Option (List (Field × Bytes) × Bytes)
  | .buildFrame b, _ => some ([], b)
  | .wrText fn dm ds pt md st sp al td, x =>
    some (textFields fn dm ds pt md st sp al, bodyText fn dm ds pt md st sp (readReg .prep x) al td)
  | .wrVar v a d, _ => some ([(.variableCode, v), (.varAttr, a)], bodyVar v a d)
  | .wrGfx fn a p, _ => some ([(.filename, fn), (.gfxAttr, a)], bodyGfx fn a p)
  | .wrSpecial sub p, _ => some ([(.subcommand, sub)], bodyWriteSpecial sub p)
  | .rdSpecial sub p, _ => some ([(.subcommand, sub)], bodyReadSpecial sub p)
  | .text td, x =>
    some (textFields x.filename x.displayMode x.displaySpeed x.pauseTime x.showDateMask x.startTime x.stopTime x.align,
      bodyText x.filename x.displayMode x.displaySpeed x.pauseTime x.showDateMask x.startTime x.stopTime
        (readReg .prep x) x.align td)
  | .sfClear, _ => some ([], bodyWriteSpecial [0x4C#8] [])
  | .sfReset, _ => some ([], bodyWriteSpecial [0x42#8] [])
  | .sfClock p, _ => some ([(.clock, p)], bodyWriteSpecial [0x41#8] p)
  | .sfClocksync now, _ => some ([(.clock, fmtNow now)], bodyWriteSpecial [0x41#8] (fmtNow now))
  | .sfPassword p, _ => some ([(.password, p)], bodyWriteSpecial [0x43#8] p)
  | .sfDevnum p, _ => some ([(.deviceNumber, p)], bodyWriteSpecial [0x44#8] p)
  | .sfWindows p, _ => some ([(.windows, p)], bodyWriteSpecial [0x45#8] p)
  | .sfDispmode p, _ => some ([(.sfDisplayMode, p)], bodyWriteSpecial [0x46#8] p)
  | .sfCuevoice p, _ => some ([(.cueVoice, p)], bodyWriteSpecial [0x4A#8] p)
  | .sfPwmode p, _ => some ([(.passwordMode, p)], bodyWriteSpecial [0x4B#8] p)
  | .sfBright p, _ => some ([(.brightness, p)], bodyWriteSpecial [0x50#8] p)
  | _, _ => none

/-- A frame-building operation encodes its body after its own checks (R120, R140). -/
theorem exec_of_frameParts {i : Instr} {s : State} {own : List (Field × Bytes)} {bytes : Bytes}
    (hwf : i.wellFormed = true) (h : frameParts i s.session = some (own, bytes)) :
    exec i s = .next (s.encodeBody own bytes) := by
  have special (f : Field) (sub : Byte) (p : Bytes) :=
    congrArg (Host.Outcome.next (φ := Fault) (ρ := Refusal)) (s.specialFunction_eq_encodeBody f sub p)
  cases i <;> cases h
  case sfClear | sfReset => exact congrArg Host.Outcome.next (State.writeSpecial_one _ _ s)
  case sfClocksync now => exact (if_pos hwf).trans (special _ _ _)
  case sfClock | sfPassword | sfDevnum | sfWindows | sfDispmode | sfCuevoice | sfPwmode | sfBright =>
    exact special _ _ _
  all_goals rfl

/-- A setter stores its operand in its register and answers `Ok` (R160). -/
theorem exec_of_setting {i : Instr} {r : Reg} {v : Bytes} (h : setting i = some (r, v)) (s : State) :
    exec i s = .next (s.configure r v) := by
  cases i <;> cases h <;> rfl

theorem exec_lookup_of_some {s : State} {t : TableId} {n : Name} {c : Byte} (h : memRead s.config.tables t n = some c) :
    exec (.lookup t n) s = .next (s.respond (.code c)) := by
  simp [exec, execLookup, h]

theorem exec_lookup_of_none {s : State} {t : TableId} {n : Name} (h : memRead s.config.tables t n = none) :
    exec (.lookup t n) s = .next (s.respond (.error (.unknownOption t n))) := by
  simp [exec, execLookup, h]

theorem exec_checksum (s : State) (data : Bytes) : exec (.checksum data) s = .next (s.respond (.cks (cks data))) := rfl

/-- `SF_CLOCKSYNC` refuses a time outside the bounds of R144. -/
theorem exec_sfClocksync_refused {now : Now} (h : now.inBounds = false) (s : State) :
    exec (.sfClocksync now) s = .refused (.timeOutOfRange now) := by
  simp [exec, execSfClocksync, h]

/-- Everything an operation can do to a state: `Performs i s t` has one case for each family of operations, by what it
answers and stores. -/
inductive Performs : Instr → State → State → Prop
  /-- It runs its checks and the address checks, then frames its body (R114, R120, R140). -/
  | frame {i s own bytes} (h : frameParts i s.session = some (own, bytes)) : Performs i s (s.encodeBody own bytes)
  /-- It stores its operand (R160). -/
  | store {i s r v} (h : setting i = some (r, v)) : Performs i s (s.configure r v)
  /-- `LOOKUP` of a key (R101). -/
  | code {s t n c} (h : memRead s.config.tables t n = some c) : Performs (.lookup t n) s (s.respond (.code c))
  /-- `LOOKUP` of a name that is no key (R101, R185). -/
  | unknown {s t n} (h : memRead s.config.tables t n = none) :
      Performs (.lookup t n) s (s.respond (.error (.unknownOption t n)))
  /-- `CHECKSUM` (R112). -/
  | checksum {s data} : Performs (.checksum data) s (s.respond (.cks (cks data)))

/-- Every request runs, and does what its family does. -/
theorem exec_performs {i : Instr} (hwf : i.wellFormed = true) (s : State) :
    ∃ t, exec i s = .next t ∧ Performs i s t := by
  have frame {own bytes} (h : frameParts i s.session = some (own, bytes)) :
      ∃ t, exec i s = .next t ∧ Performs i s t :=
    ⟨_, exec_of_frameParts hwf h, .frame h⟩
  have store {r v} (h : setting i = some (r, v)) : ∃ t, exec i s = .next t ∧ Performs i s t :=
    ⟨_, exec_of_setting h s, .store h⟩
  cases i
  case lookup t n =>
    cases h : memRead s.config.tables t n with
    | some c => exact ⟨_, exec_lookup_of_some h, .code h⟩
    | none => exact ⟨_, exec_lookup_of_none h, .unknown h⟩
  case checksum data => exact ⟨_, exec_checksum s data, .checksum⟩
  case cfgSender | cfgReceiver | cfgFilename | cfgMode | cfgSpeed | cfgPause | cfgDatemask | cfgStart | cfgStop |
      cfgAlign => exact store rfl
  all_goals exact frame rfl

/-- Only a request goes on to a next state (R144). -/
theorem wellFormed_of_exec {i : Instr} {s t : State} (h : exec i s = .next t) : i.wellFormed = true := by
  cases i
  case sfClocksync now =>
    cases hb : now.inBounds with
    | true => exact hb
    | false => rw [exec_sfClocksync_refused hb] at h; cases h
  all_goals rfl

/-- The inversion of `exec`: what an operation that goes on to `t` has done. -/
theorem performs_of_exec {i : Instr} {s t : State} (h : exec i s = .next t) : Performs i s t := by
  obtain ⟨t', ht', hp⟩ := exec_performs (wellFormed_of_exec h) s
  rw [h] at ht'
  cases ht'
  exact hp

/-! ### Every answer is sound -/

/-- An error of the length checks is one that the configuration allows (R181, R182). -/
theorem checkAll_error_sound {c : Config} {cs : List (Field × Bytes)} {e : Error}
    (h : checkAll c.validate cs = some e) : SoundResponse c (.error e) := by
  obtain ⟨hmode, d, -, hlen, rfl⟩ := checkAll_some h
  exact ⟨hmode, rfl, hlen⟩

/-- A frame built after the address checks has two-byte addresses under `ENFORCE` (R54, R114). -/
theorem frameOf_sound {c : Config} {x : Session} {own : List (Field × Bytes)} (bytes : Bytes)
    (h : checkAll c.validate (own ++ addressFields x) = none) :
    SoundResponse c (.frame (frameOf x.senderAddress x.receiverAddress bytes)) := by
  refine ⟨x.senderAddress, x.receiverAddress, bytes, rfl, fun hmode => ?_⟩
  rw [hmode] at h
  have nominal := checkAll_enforce_none h
  exact ⟨nominal (.senderAddress, x.senderAddress) (by simp [addressFields]),
    nominal (.receiverAddress, x.receiverAddress) (by simp [addressFields])⟩

/-- An encoder answers one sound response and changes nothing else. -/
theorem State.encodeBody_sound (own : List (Field × Bytes)) (bytes : Bytes) (s : State) :
    ∃ r, s.encodeBody own bytes = s.respond r ∧ SoundResponse s.config r := by
  rw [State.encodeBody_eq]
  cases h : checkAll s.config.validate (own ++ addressFields s.session) with
  | some e => exact ⟨_, rfl, checkAll_error_sound h⟩
  | none => exact ⟨_, rfl, frameOf_sound bytes h⟩

/-- Every operation gives exactly one response, a sound one, and touches neither the configuration nor the queue
(R18, R37). -/
theorem Performs.answers_sound {i : Instr} {s t : State} (h : Performs i s t) :
    ∃ r, t.responses = s.responses ++ [r] ∧ t.config = s.config ∧ t.pending = s.pending ∧
      SoundResponse s.config r := by
  cases h with
  | @frame _ _ own bytes h =>
    obtain ⟨r, he, hr⟩ := s.encodeBody_sound own bytes
    exact ⟨r, by simp [he], by simp [he], by simp [he], hr⟩
  | store h => exact ⟨.ok, rfl, rfl, rfl, trivial⟩
  | @code _ k n c h => exact ⟨.code c, rfl, rfl, rfl, k, n, mem_of_codeOf h⟩
  | unknown h => exact ⟨_, rfl, rfl, rfl, codeOf_eq_none.mp h⟩
  | @checksum _ data => exact ⟨_, rfl, rfl, rfl, cks_length data, cks_upperHex data⟩

/-- Settles O36, from what an operation of each family does. -/
theorem everyRequestEndsWithOneResponse : Obligations.EveryRequestEndsWithOneResponse := by
  intro i s hwf
  obtain ⟨t, ht, hp⟩ := exec_performs hwf s
  obtain ⟨r, hresponses, hconfig, hpending, -⟩ := hp.answers_sound
  exact ⟨r, t, ht, hresponses, hconfig, hpending⟩

/-! ### Safe states -/

/-- A safe state stays safe under one more sound response. -/
theorem inv_of_sound_response {s t : State} {r : Response} (hs : Inv s) (hconfig : t.config = s.config)
    (hresponses : t.responses = s.responses ++ [r]) (hr : SoundResponse s.config r) : Inv t := by
  obtain ⟨htables, hsound⟩ := hs
  refine ⟨hconfig ▸ htables, fun q hq => ?_⟩
  rw [hresponses, List.mem_append, List.mem_singleton] at hq
  rw [hconfig]
  rcases hq with hq | rfl
  · exact hsound q hq
  · exact hr

/-- Every operation keeps a state safe. -/
theorem exec_keeps_inv {i : Instr} {s t : State} (hs : Inv s) (h : exec i s = .next t) : Inv t := by
  obtain ⟨r, hresponses, hconfig, -, hr⟩ := (performs_of_exec h).answers_sound
  exact inv_of_sound_response hs hconfig hresponses hr

/-- Everything a step that goes on can be: idle, or the operation of the first request that waits (R62, R199). -/
theorem step_cases {s t : State} (h : step s = .next t) :
    (s.pending = [] ∧ t = s) ∨
    ∃ request rest i, s.pending = request :: rest ∧ decodeRequest request = .ok i ∧
      exec i { s with pending := rest } = .next t := by
  cases hp : s.pending with
  | nil =>
    simp only [step, State.takeRequest_nil hp, Host.Outcome.next.injEq] at h
    exact .inl ⟨rfl, h.symm⟩
  | cons request rest =>
    simp only [step, State.takeRequest_cons hp] at h
    cases hd : decodeRequest request with
    | error why => simp [hd] at h
    | ok i => exact .inr ⟨request, rest, i, rfl, hd, by simpa [hd] using h⟩

/-- Settles O49: an idle step changes nothing, and the operation of a request keeps the state with it taken safe. -/
theorem everyStepKeepsSafety : Obligations.EveryStepKeepsSafety := by
  intro s t hs h
  rcases step_cases h with ⟨-, rfl⟩ | ⟨request, rest, i, -, -, hexec⟩
  · exact hs
  · have hs' : Inv { s with pending := rest } := hs
    exact exec_keeps_inv hs' hexec

/-- Settles O48: the open tables are admissible by construction, and nothing has been answered. -/
theorem resetStateIsSafe : Obligations.ResetStateIsSafe :=
  ⟨Config.openTables_admissible, fun _ hr => absurd hr List.not_mem_nil⟩

end Sys2Proof.Machine
end

section
/-! SUPPORT and PROOFS. The session and the queue: what an operation leaves in the registers, what its answer depends on,
when a frame is answered under `ENFORCE`, and a run over a queue of encoded requests (10_state.md). -/

namespace Sys2Proof

/-! ### Encoded requests read back, one lemma a format (R87) -/

theorem parseLookup_encode (mk : TableId → Name → Instr) (t : TableId) (n : Name) (rest : Bytes) :
    parseLookup mk (encodeNat t.number ++ encodeBytes n ++ rest) = .ok (mk t n, rest) := by
  simp [parseLookup, List.append_assoc]

theorem parseOne_encode (mk : Bytes → Instr) (a rest : Bytes) : parseOne mk (encodeBytes a ++ rest) = .ok (mk a, rest) := by
  simp [parseOne]

theorem parseTwo_encode (mk : Bytes → Bytes → Instr) (a b rest : Bytes) :
    parseTwo mk (encodeBytes a ++ encodeBytes b ++ rest) = .ok (mk a b, rest) := by
  simp [parseTwo, List.append_assoc]

theorem parseThree_encode (mk : Bytes → Bytes → Bytes → Instr) (a b c rest : Bytes) :
    parseThree mk (encodeBytes a ++ encodeBytes b ++ encodeBytes c ++ rest) = .ok (mk a b c, rest) := by
  simp [parseThree, List.append_assoc]

theorem parseTextFull_encode (fn dm ds pt md st sp al td rest : Bytes) :
    parseTextFull (encodeOperands (.wrText fn dm ds pt md st sp al td) ++ rest) =
      .ok (.wrText fn dm ds pt md st sp al td, rest) := by
  simp [parseTextFull, encodeOperands, List.append_assoc]

theorem parseClocksync_encode {now : Now} (h : now.inBounds = true) (rest : Bytes) :
    parseClocksync (encodeNow now ++ rest) = .ok (.sfClocksync now, rest) := by
  simp [parseClocksync, parseNow_encodeNow now h]

/-- The decoder reads an encoded request back and leaves the bytes after it: its selector leads to the format its operands
are written in. -/
theorem decode_encode_append {i : Instr} (hwf : i.wellFormed = true) (rest : Bytes) :
    decode (encode i ++ rest) = .ok (i, rest) := by
  cases i
  case lookup t n => exact parseLookup_encode _ t n rest
  case wrText fn dm ds pt md st sp al td => exact parseTextFull_encode fn dm ds pt md st sp al td rest
  case wrVar a b c | wrGfx a b c => exact parseThree_encode _ a b c rest
  case wrSpecial a b | rdSpecial a b => exact parseTwo_encode _ a b rest
  case sfClear | sfReset => rfl
  case sfClocksync now => exact parseClocksync_encode hwf rest
  all_goals exact parseOne_encode _ _ rest

/-- An encoded request is one whole request. -/
theorem decodeRequest_encode {i : Instr} (hwf : i.wellFormed = true) : decodeRequest (encode i) = .ok i := by
  have h := decode_encode_append hwf []
  rw [List.append_nil] at h
  simp [decodeRequest, h]

namespace Machine

open Sys2Proof.Safety

/-! ### What an operation leaves in the registers -/

/-- A setter builds no frame. -/
theorem setting_eq_none_of_frameParts {i : Instr} {x : Session} {p : List (Field × Bytes) × Bytes}
    (h : frameParts i x = some p) : setting i = none := by
  cases i
  case cfgSender | cfgReceiver | cfgFilename | cfgMode | cfgSpeed | cfgPause | cfgDatemask | cfgStart | cfgStop |
      cfgAlign => cases h
  all_goals rfl

/-- No setter writes the hardwired register (R31). -/
theorem setting_ne_prep {i : Instr} {r : Reg} {v : Bytes} (h : setting i = some (r, v)) : r ≠ .prep := by
  cases i <;> cases h <;> decide

/-- The session an operation leaves: a setter writes its register, any other operation writes none (R33).
`session_of_exec` ties it to `exec`. -/
def sessionAfter (i : Instr) (x : Session) : Session :=
  match setting i with
  | some (r, v) => writeReg r v x
  | none => x

theorem sessionAfter_of_setting {i : Instr} {r : Reg} {v : Bytes} (h : setting i = some (r, v)) (x : Session) :
    sessionAfter i x = writeReg r v x := by
  simp [sessionAfter, h]

theorem sessionAfter_of_no_setting {i : Instr} (h : setting i = none) (x : Session) : sessionAfter i x = x := by
  simp [sessionAfter, h]

theorem session_of_exec {i : Instr} {s t : State} (h : exec i s = .next t) : t.session = sessionAfter i s.session := by
  cases performs_of_exec h with
  | @frame _ _ own bytes hparts =>
    obtain ⟨r, hr⟩ := s.encodeBody_responds own bytes
    rw [hr, sessionAfter_of_no_setting (setting_eq_none_of_frameParts hparts)]
    rfl
  | store hset => rw [sessionAfter_of_setting hset]; rfl
  | code | unknown | checksum => rfl

/-- A setter's register holds its operand. -/
theorem readReg_sessionAfter_own {i : Instr} {r : Reg} {v : Bytes} (h : setting i = some (r, v)) (x : Session) :
    readReg r (sessionAfter i x) = v := by
  rw [sessionAfter_of_setting h, readReg_writeReg_same (setting_ne_prep h)]

/-- Any other register holds what it held before. -/
theorem readReg_sessionAfter_other {i : Instr} {r : Reg} (h : ∀ v, setting i ≠ some (r, v)) (x : Session) :
    readReg r (sessionAfter i x) = readReg r x := by
  cases hset : setting i with
  | none => rw [sessionAfter_of_no_setting hset]
  | some p =>
    obtain ⟨q, v⟩ := p
    have hne : r ≠ q := fun e => h v (e ▸ hset)
    rw [sessionAfter_of_setting hset, readReg_writeReg_other hne]

/-- Settles O37: the session after an operation is its setter's write, if it is a setter. -/
theorem onlyItsSetterWritesARegister : Obligations.OnlyItsSetterWritesARegister := by
  refine ⟨fun i s t r h => ?_, readReg_prep⟩
  rw [session_of_exec h]
  exact ⟨fun v hv => readReg_sessionAfter_own hv _, fun hv => readReg_sessionAfter_other hv _⟩

/-! ### What an answer depends on -/

/-- An encoder's answer depends on its operands, the configuration and the two addresses alone. -/
theorem State.encodeBody_same_response {s1 s2 : State} (own : List (Field × Bytes)) (bytes : Bytes)
    (hsender : s1.session.senderAddress = s2.session.senderAddress)
    (hreceiver : s1.session.receiverAddress = s2.session.receiverAddress) (hconfig : s1.config = s2.config) :
    ∃ r, s1.encodeBody own bytes = s1.respond r ∧ s2.encodeBody own bytes = s2.respond r := by
  have hfields : addressFields s1.session = addressFields s2.session := by
    rw [addressFields, addressFields, hsender, hreceiver]
  rw [State.encodeBody_eq, State.encodeBody_eq, hfields, hconfig, hsender, hreceiver]
  cases checkAll s2.config.validate (own ++ addressFields s2.session) with
  | some e => exact ⟨_, rfl, rfl⟩
  | none => exact ⟨_, rfl, rfl⟩

/-- An operation answers the same in two states that share the configuration, the addresses, and what the operation
checks and frames. -/
theorem exec_same_response {i : Instr} {s1 s2 t1 : State} (h : exec i s1 = .next t1)
    (hparts : frameParts i s1.session = frameParts i s2.session)
    (hsender : s1.session.senderAddress = s2.session.senderAddress)
    (hreceiver : s1.session.receiverAddress = s2.session.receiverAddress) (hconfig : s1.config = s2.config) :
    ∃ t2 r, exec i s2 = .next t2 ∧ t1.responses = s1.responses ++ [r] ∧ t2.responses = s2.responses ++ [r] := by
  cases performs_of_exec h with
  | @frame _ _ own bytes hf =>
    obtain ⟨r, h1, h2⟩ := State.encodeBody_same_response own bytes hsender hreceiver hconfig
    refine ⟨_, r, exec_of_frameParts (wellFormed_of_exec h) (hparts ▸ hf), ?_, ?_⟩
    · rw [h1]; rfl
    · rw [h2]; rfl
  | store hset => exact ⟨_, _, exec_of_setting hset s2, rfl, rfl⟩
  | code hc => exact ⟨_, _, exec_lookup_of_some (hconfig ▸ hc), rfl, rfl⟩
  | unknown hn => exact ⟨_, _, exec_lookup_of_none (hconfig ▸ hn), rfl, rfl⟩
  | checksum => exact ⟨_, _, exec_checksum s2 _, rfl, rfl⟩

/-- Settles O42: the answer and the session left are read off the session and the configuration. -/
theorem noHiddenState : Obligations.NoHiddenState := by
  intro i s1 s2 t1 hsession hconfig h1
  obtain ⟨t2, r, h2, hr1, hr2⟩ := exec_same_response h1 (congrArg (frameParts i) hsession)
    (congrArg Session.senderAddress hsession) (congrArg Session.receiverAddress hsession) hconfig
  refine ⟨t2, r, h2, ?_, hr1, hr2⟩
  rw [session_of_exec h2, session_of_exec h1, hsession]

/-- Only `TEXT` takes what it checks and frames from the session (R33). -/
theorem frameParts_eq_of_ne_text {i : Instr} (h : ∀ td, i ≠ .text td) (x y : Session) :
    frameParts i x = frameParts i y := by
  cases i
  case text td => exact absurd rfl (h td)
  all_goals rfl

/-- Settles O43: what any operation but `TEXT` checks and frames does not depend on the session. -/
theorem onlyTextReadsTheTextRegisters : Obligations.OnlyTextReadsTheTextRegisters := by
  rintro i s1 s2 r hne hsender hreceiver hconfig ⟨t1, h1, hr⟩
  obtain ⟨t2, r', h2, hr1, hr2⟩ := exec_same_response h1 (frameParts_eq_of_ne_text hne _ _) hsender hreceiver hconfig
  obtain rfl : r' = r := by simpa [hr] using hr1.symm
  exact ⟨t2, h2, hr2⟩

/-! ### Frames under `ENFORCE` -/

/-- Under `ENFORCE` a run of checks passes exactly when every field is nominal (R182). -/
theorem checkAll_enforce_eq_none_iff {cs : List (Field × Bytes)} :
    checkAll .enforce cs = none ↔ ∀ c ∈ cs, c.2.length = c.1.width :=
  ⟨checkAll_enforce_none, checkAll_nominal⟩

/-- An encoder answers a frame exactly when all checks pass. -/
theorem State.encodeBody_frame_iff (own : List (Field × Bytes)) (bytes : Bytes) (s : State) :
    (∃ f, (s.encodeBody own bytes).responses = s.responses ++ [.frame f]) ↔
      checkAll s.config.validate (own ++ addressFields s.session) = none := by
  rw [State.encodeBody_eq]
  cases checkAll s.config.validate (own ++ addressFields s.session) <;> simp

/-- The fields an operation checks are those that R191's table gives it; the formatted time of `SF_CLOCKSYNC`, which the
table leaves out, always has its width. -/
theorem frameParts_of_ownChecks {i : Instr} {x : Session} {cs : List Check} (h : ownChecks i x = some cs) :
    ∃ own bytes, frameParts i x = some (own, bytes) ∧
      ((∀ c ∈ own, c.2.length = c.1.width) ↔ ∀ c ∈ cs, c.Nominal) := by
  cases i <;> cases h <;> refine ⟨_, _, rfl, ?_⟩
  case wrText | text => simp [textFields, textChecks, Field.width]
  case sfClocksync now => simp [Field.width, fmtNow_length now]
  all_goals simp [Field.width]

/-- The Frame Builder's two checks are the two address checks (R114). -/
theorem addressFields_nominal_iff (x : Session) :
    (∀ c ∈ addressFields x, c.2.length = c.1.width) ↔ ∀ c ∈ addressChecks x, c.Nominal := by
  simp [addressFields, addressChecks, Field.width]

/-- What an operation that goes on to `t` responds is what `t` has more. -/
theorem responds_iff_of_exec {i : Instr} {s t : State} (h : exec i s = .next t) (r : Response) :
    Responds i s r ↔ t.responses = s.responses ++ [r] := by
  simp [Responds, h]

/-- Settles O41: the checks that run are the fields of R191's table and the addresses, and they pass exactly when all are
nominal. -/
theorem enforcedFramesHaveNominalFields : Obligations.EnforcedFramesHaveNominalFields := by
  intro i s cs hmode hwf hcs
  obtain ⟨ownCs, hown, rfl⟩ := Option.map_eq_some_iff.mp hcs
  obtain ⟨own, bytes, hparts, hnominal⟩ := frameParts_of_ownChecks hown
  calc (∃ f, Responds i s (.frame f))
      ↔ ∃ f, (s.encodeBody own bytes).responses = s.responses ++ [.frame f] := by
        simp only [responds_iff_of_exec (exec_of_frameParts hwf hparts)]
    _ ↔ ∀ c ∈ own ++ addressFields s.session, c.2.length = c.1.width := by
        rw [State.encodeBody_frame_iff, hmode, checkAll_enforce_eq_none_iff]
    _ ↔ ∀ c ∈ ownCs ++ addressChecks s.session, c.Nominal := by
        rw [List.forall_mem_append, List.forall_mem_append, hnominal, addressFields_nominal_iff]

/-! ### The queue -/

/-- Settles O5, by what the step does with the request it takes. -/
theorem stepRunsTheFirstPendingRequest : Obligations.StepRunsTheFirstPendingRequest := by
  intro s request rest i hpending hdecode
  simp [step, State.takeRequest_cons hpending, hdecode]

/-- An operation does not look at the queue: with other requests waiting it leaves the same state, and them waiting. -/
theorem exec_with_pending {i : Instr} {s t : State} (h : exec i s = .next t) (queue : List Bytes) :
    exec i { s with pending := queue } = .next { t with pending := queue } := by
  obtain ⟨u, r, hu, hsession, ht, hur⟩ := noHiddenState i s { s with pending := queue } t rfl rfl h
  obtain ⟨-, -, htconfig, -, -⟩ := (performs_of_exec h).answers_sound
  obtain ⟨-, -, huconfig, hupending, -⟩ := (performs_of_exec hu).answers_sound
  have hresponses : u.responses = t.responses := hur.trans ht.symm
  have hconfig : u.config = t.config := huconfig.trans htconfig.symm
  calc exec i { s with pending := queue }
      = .next ⟨u.session, u.config, u.pending, u.responses⟩ := hu
    _ = .next { t with pending := queue } := by rw [hsession, hconfig, hupending, hresponses]

theorem perform_eq_of_exec {i : Instr} {s t : State} (h : exec i s = .next t) : perform i s = t := by
  simp [perform, h]

@[simp] theorem performAll_nil (s : State) : performAll [] s = s := rfl

@[simp] theorem performAll_cons (i : Instr) (is : List Instr) (s : State) :
    performAll (i :: is) s = performAll is (perform i s) := rfl

/-- Performing requests gives one response each and leaves the queue alone (R18). -/
theorem performAll_answers {is : List Instr} (hwf : ∀ i ∈ is, i.wellFormed = true) (s : State) :
    (performAll is s).pending = s.pending ∧ (performAll is s).responses.length = s.responses.length + is.length := by
  induction is generalizing s with
  | nil => simp
  | cons i is ih =>
    obtain ⟨hi, his⟩ := List.forall_mem_cons.mp hwf
    obtain ⟨r, t, ht, hresponses, -, hpending⟩ := everyRequestEndsWithOneResponse i s hi
    obtain ⟨hp, hr⟩ := ih his t
    rw [performAll_cons, perform_eq_of_exec ht]
    refine ⟨hp.trans hpending, ?_⟩
    rw [hr, hresponses, List.length_append, List.length_singleton, List.length_cons]
    omega

/-- A run begins with its first step. -/
theorem core_run_succ_of_step {s t : State} (h : step s = .next t) (k : Nat) :
    Sys2Proof.core.run (k + 1) s = Sys2Proof.core.run k t := by
  have h' : Sys2Proof.core.step s = .next t := h
  simp only [Host.Core.run, h']

/-- As many steps as there are encoded requests waiting perform them in their order. -/
theorem core_run_of_pending {is : List Instr} (hwf : ∀ i ∈ is, i.wellFormed = true) {s : State}
    (hpending : s.pending = is.map encode) :
    Sys2Proof.core.run is.length s = .next (performAll is { s with pending := [] }) := by
  induction is generalizing s with
  | nil =>
    obtain ⟨session, config, pending, responses⟩ := s
    obtain rfl : pending = [] := hpending
    rfl
  | cons i is ih =>
    obtain ⟨hi, his⟩ := List.forall_mem_cons.mp hwf
    obtain ⟨-, t, ht, -, -, htp⟩ := everyRequestEndsWithOneResponse i { s with pending := is.map encode } hi
    have hstep : step s = .next t :=
      (stepRunsTheFirstPendingRequest s _ _ i hpending (decodeRequest_encode hi)).trans ht
    have hperform : perform i { s with pending := [] } = { t with pending := [] } :=
      perform_eq_of_exec (exec_with_pending ht [])
    rw [List.length_cons, core_run_succ_of_step hstep, performAll_cons, hperform]
    exact ih his htp

/-- Settles O50, by induction on the requests: each step is the first request's operation, which does not look at those
behind it. -/
theorem runPerformsRequestsInArrivalOrder : Obligations.RunPerformsRequestsInArrivalOrder :=
  fun s _ hwf hpending => ⟨core_run_of_pending hwf hpending, performAll_answers hwf { s with pending := [] }⟩

/-! ### Reset -/

/-- Settles O46: these parts of the created state do not depend on the open inputs. -/
theorem resetStateHasTheDefaults : Obligations.ResetStateHasTheDefaults :=
  ⟨rfl, rfl, rfl, rfl, rfl, rfl, rfl, rfl, rfl⟩

end Machine

end Sys2Proof
end

section
/-! SUPPORT and PROOFS. The frame map (20_memory.md): the frame as seven writes, its parts at their offsets and from its
end, and the length of the frame each operation builds. -/

namespace Sys2Proof.Machine

open Sys2Proof.Safety

/-! ### The frame as seven writes (R59) -/

/-- A write at the end of the buffer appends to it. -/
theorem memWrite_at_end {buffer : Bytes} {off : Nat} (h : buffer.length = off) (v : Bytes) :
    memWrite buffer off v = buffer ++ v := by
  subst h
  simp [memWrite]

/-- Each of the seven writes lands where the one before it ended. -/
theorem frameByWrites_eq_frameOf (a b bytes : Bytes) : frameByWrites a b bytes = frameOf a b bytes := by
  have header : memWrite [] 0 [NUL, NUL, NUL, NUL, NUL] = [NUL, NUL, NUL, NUL, NUL] := rfl
  have soh : memWrite [NUL, NUL, NUL, NUL, NUL] 5 [SOH] = [NUL, NUL, NUL, NUL, NUL, SOH] := rfl
  simp only [frameByWrites, header, soh]
  rw [memWrite_at_end (by simp) a, memWrite_at_end (by simp; omega) b, memWrite_at_end (by simp; omega) bytes,
    memWrite_at_end (by simp; omega) (cks bytes), memWrite_at_end (by simp; omega) [EOT]]
  rfl

/-- Settles O16: the writes give the frame, which is the concatenation. -/
theorem writingTheSevenPartsIsTheConcatenation : Obligations.WritingTheSevenPartsIsTheConcatenation :=
  frameByWrites_eq_frameOf

/-! ### The parts of a frame at their offsets (R54) -/

/-- What stands between two byte strings is found by its offset and its length. -/
theorem take_drop_append_append {p q r : Bytes} {off n : Nat} (hp : p.length = off) (hq : q.length = n) :
    ((p ++ q ++ r).drop off).take n = q := by
  rw [List.append_assoc, List.drop_left' hp, List.take_left' hq]

section
variable (a b bytes : Bytes)

theorem frameOf_sender : ((frameOf a b bytes).drop 6).take a.length = a := by
  simp [frameOf]

theorem frameOf_receiver : ((frameOf a b bytes).drop (6 + a.length)).take b.length = b := by
  rw [frameOf, List.append_assoc _ (cks bytes), List.append_assoc _ bytes]
  exact take_drop_append_append (by simp; omega) rfl

theorem frameOf_body : ((frameOf a b bytes).drop (6 + a.length + b.length)).take bytes.length = bytes := by
  rw [frameOf, List.append_assoc _ (cks bytes)]
  exact take_drop_append_append (by simp; omega) rfl

theorem frameOf_checksum : ((frameOf a b bytes).drop (6 + a.length + b.length + bytes.length)).take 4 = cks bytes :=
  take_drop_append_append (by simp; omega) rfl

theorem frameOf_eot : (frameOf a b bytes).drop (10 + a.length + b.length + bytes.length) = [EOT] :=
  List.drop_left' (by simp; omega)

/-- The bytes of the body stand in the frame from the body's offset on. -/
theorem frameOf_getElem?_body {k : Nat} (h : k < bytes.length) :
    (frameOf a b bytes)[6 + a.length + b.length + k]? = bytes[k]? := by
  calc (frameOf a b bytes)[6 + a.length + b.length + k]?
      = (((frameOf a b bytes).drop (6 + a.length + b.length)).take bytes.length)[k]? := by
        rw [List.getElem?_take_of_lt h, List.getElem?_drop]
    _ = bytes[k]? := by rw [frameOf_body]

end

/-- Whatever operation answers a frame, it is the frame around the body of its format, with the session's addresses. -/
theorem frame_of_responds {i : Instr} {s : State} {f : Bytes} (h : Responds i s (.frame f)) :
    ∃ own bytes, frameParts i s.session = some (own, bytes) ∧
      f = frameOf s.session.senderAddress s.session.receiverAddress bytes := by
  obtain ⟨t, hexec, hresponses⟩ := h
  cases performs_of_exec hexec with
  | @frame _ _ own bytes hparts =>
    refine ⟨own, bytes, hparts, ?_⟩
    rw [State.encodeBody_eq] at hresponses
    cases hchecks : checkAll s.config.validate (own ++ addressFields s.session) with
    | some e => simp [hchecks] at hresponses
    | none => simpa [hchecks] using hresponses.symm
  | store | code | unknown | checksum => simp at hresponses

/-- Settles O17: every answered frame is `frameOf` of some body, and each part of that stands at its offset. -/
theorem everyFrameHasTheFrameMap : Obligations.EveryFrameHasTheFrameMap := by
  intro i s f h
  obtain ⟨-, bytes, -, rfl⟩ := frame_of_responds h
  exact ⟨bytes, frameOf_length _ _ _, rfl, frameOf_sender _ _ _, frameOf_receiver _ _ _, frameOf_body _ _ _,
    frameOf_checksum _ _ _, frameOf_eot _ _ _⟩

/-! ### The parts of a frame from its end (R57) -/

/-- Every operation with a command code builds a body of R71's shape with that code (R72). -/
theorem frameParts_body_of_commandCode {i : Instr} {x : Session} {code : Byte} {own : List (Field × Bytes)} {bytes : Bytes}
    (hcode : commandCode i = some code) (hparts : frameParts i x = some (own, bytes)) :
    ∃ fields, bytes = body code fields := by
  cases i <;> cases hcode <;> cases hparts <;> exact ⟨_, rfl⟩

@[simp] theorem body_length (code : Byte) (fields : Bytes) : (body code fields).length = 3 + fields.length := by
  simp [body]
  omega

/-- A body begins with STX. -/
theorem body_getElem?_zero (code : Byte) (fields : Bytes) : (body code fields)[0]? = some STX := rfl

/-- A body ends with ETX. -/
theorem body_getElem?_last (code : Byte) (fields : Bytes) :
    (body code fields)[(body code fields).length - 1]? = some ETX := by
  rw [← List.getLast?_eq_getElem?, body, List.getLast?_concat]

/-- A frame ends with EOT. -/
theorem frameOf_getElem?_last (a b bytes : Bytes) :
    (frameOf a b bytes)[(frameOf a b bytes).length - 1]? = some EOT := by
  rw [← List.getLast?_eq_getElem?, frameOf, List.getLast?_concat]

section
variable {a b : Bytes} (ha : a.length = 2) (hb : b.length = 2)
include ha hb

theorem frameOf_length_of_addresses (bytes : Bytes) : (frameOf a b bytes).length = 15 + bytes.length := by
  rw [frameOf_length, ha, hb]

/-- With two-byte addresses the body is what stands between the ten bytes before it and the five after it. -/
theorem frameOf_body_from_end (bytes : Bytes) :
    ((frameOf a b bytes).drop 10).take ((frameOf a b bytes).length - 15) = bytes := by
  have h := frameOf_body a b bytes
  rwa [ha, hb, ← Nat.add_sub_cancel_left (n := 15) (m := bytes.length), ← frameOf_length_of_addresses ha hb] at h

/-- With two-byte addresses the checksum is the four bytes before EOT. -/
theorem frameOf_checksum_from_end (bytes : Bytes) :
    ((frameOf a b bytes).drop ((frameOf a b bytes).length - 5)).take 4 = cks bytes := by
  have hoffset : (frameOf a b bytes).length - 5 = 6 + a.length + b.length + bytes.length := by rw [frameOf_length]; omega
  rw [hoffset, frameOf_checksum]

/-- With two-byte addresses a body of R71's shape has its STX at 10 and its ETX six bytes from the end of the frame. -/
theorem frameOf_body_markers (code : Byte) (fields : Bytes) :
    (frameOf a b (body code fields))[10]? = some STX ∧
      (frameOf a b (body code fields))[(frameOf a b (body code fields)).length - 6]? = some ETX := by
  have hlength := body_length code fields
  have hfirst : 10 = 6 + a.length + b.length + 0 := by omega
  have hlast : (frameOf a b (body code fields)).length - 6 =
      6 + a.length + b.length + ((body code fields).length - 1) := by rw [frameOf_length]; omega
  constructor
  · rw [hfirst, frameOf_getElem?_body _ _ _ (by omega), body_getElem?_zero]
  · rw [hlast, frameOf_getElem?_body _ _ _ (by omega), body_getElem?_last]

end

/-- Settles O18: the answered frame is `frameOf` of the operation's body, and an operation with a command code builds a body
between STX and ETX. -/
theorem framePartsAreFoundFromTheEnd : Obligations.FramePartsAreFoundFromTheEnd := by
  intro i s f h ha hb
  obtain ⟨own, bytes, hparts, rfl⟩ := frame_of_responds h
  refine ⟨?_, frameOf_getElem?_last _ _ _, ?_, fun hcode => ?_⟩
  · rw [frameOf_length_of_addresses ha hb]
    omega
  · rw [frameOf_checksum_from_end ha hb, frameOf_body_from_end ha hb]
  · obtain ⟨code, hcode⟩ := Option.ne_none_iff_exists'.mp hcode
    obtain ⟨fields, rfl⟩ := frameParts_body_of_commandCode hcode hparts
    exact frameOf_body_markers ha hb code fields

/-! ### The length of a frame (R56, R84) -/

/-- The body of each format is as long as R73 to R77 say. -/
theorem frameParts_body_length {i : Instr} {x : Session} {n : Nat} {own : List (Field × Bytes)} {bytes : Bytes}
    (hn : bodyLength i x = some n) (hparts : frameParts i x = some (own, bytes)) : bytes.length = n := by
  cases i <;> cases hn <;> cases hparts
  case buildFrame => rfl
  case wrText | text => simp [bodyText]; omega
  case wrVar => simp [bodyVar]; omega
  case wrGfx => simp [bodyGfx]; omega
  case rdSpecial => simp [bodyReadSpecial]; omega
  case sfClear | sfReset | sfClocksync => simp [bodyWriteSpecial]
  all_goals simp [bodyWriteSpecial]; omega

/-- Settles O21: the frame is 11 bytes and the addresses longer than its body, and the body is as long as its format says. -/
theorem frameLengthIsTheSumOfItsParts : Obligations.FrameLengthIsTheSumOfItsParts := by
  intro i s f n h hn
  obtain ⟨own, bytes, hparts, rfl⟩ := frame_of_responds h
  rw [frameOf_length, frameParts_body_length hn hparts]

end Sys2Proof.Machine
end

section
/-! SUPPORT and PROOFS. The encodings (30_encoding.md): requests and their one spelling, the operation map, the bodies of
the command families with every field at its offset, and the pseudo-operations. -/

namespace Sys2Proof

/-! ### Requests and their one spelling (R86 to R88) -/

/-- Settles O2: each format's reader reads back what is written in that format. -/
theorem decodeReadsBackEveryEncodedRequest : Obligations.DecodeReadsBackEveryEncodedRequest :=
  fun _ hwf => ⟨decodeRequest_encode hwf, decode_encode_append hwf⟩

/-- The selector and the bytes after it are the well-formed request `i`, spelled as the encoder spells it,
and then `r`. -/
def IsSpelling (selector : Byte) (w : Bytes) (i : Instr) (r : Bytes) : Prop :=
  i.wellFormed = true ∧ selector :: w = encode i ++ r

section
variable {selector : Byte} {w r : Bytes} {i : Instr}

theorem isSpelling_of_parseLookup {mk : TableId → Name → Instr}
    (hmk : ∀ t n, (mk t n).wellFormed = true ∧ encode (mk t n) = selector :: (encodeNat t.number ++ encodeBytes n))
    (h : parseLookup mk w = .ok (i, r)) : IsSpelling selector w i r := by
  simp only [parseLookup, bind_eq_ok, Prod.exists] at h
  obtain ⟨t, w1, h1, n, w2, h2, h⟩ := h
  cases h
  obtain ⟨hwf, henc⟩ := hmk t n
  exact ⟨hwf, by simp [henc, eq_of_parseTable h1, eq_of_parseBytes h2]⟩

theorem isSpelling_of_parseOne {mk : Bytes → Instr}
    (hmk : ∀ a, (mk a).wellFormed = true ∧ encode (mk a) = selector :: encodeBytes a)
    (h : parseOne mk w = .ok (i, r)) : IsSpelling selector w i r := by
  simp only [parseOne, bind_eq_ok, Prod.exists] at h
  obtain ⟨a, w1, h1, h⟩ := h
  cases h
  obtain ⟨hwf, henc⟩ := hmk a
  exact ⟨hwf, by simp [henc, eq_of_parseBytes h1]⟩

theorem isSpelling_of_parseTwo {mk : Bytes → Bytes → Instr}
    (hmk : ∀ a b, (mk a b).wellFormed = true ∧ encode (mk a b) = selector :: (encodeBytes a ++ encodeBytes b))
    (h : parseTwo mk w = .ok (i, r)) : IsSpelling selector w i r := by
  simp only [parseTwo, bind_eq_ok, Prod.exists] at h
  obtain ⟨a, w1, h1, b, w2, h2, h⟩ := h
  cases h
  obtain ⟨hwf, henc⟩ := hmk a b
  exact ⟨hwf, by simp [henc, eq_of_parseBytes h1, eq_of_parseBytes h2]⟩

theorem isSpelling_of_parseThree {mk : Bytes → Bytes → Bytes → Instr}
    (hmk : ∀ a b c, (mk a b c).wellFormed = true ∧
      encode (mk a b c) = selector :: (encodeBytes a ++ encodeBytes b ++ encodeBytes c))
    (h : parseThree mk w = .ok (i, r)) : IsSpelling selector w i r := by
  simp only [parseThree, bind_eq_ok, Prod.exists] at h
  obtain ⟨a, w1, h1, b, w2, h2, c, w3, h3, h⟩ := h
  cases h
  obtain ⟨hwf, henc⟩ := hmk a b c
  exact ⟨hwf, by simp [henc, eq_of_parseBytes h1, eq_of_parseBytes h2, eq_of_parseBytes h3]⟩

theorem isSpelling_of_parseTextFull (h : parseTextFull w = .ok (i, r)) : IsSpelling 0x20#8 w i r := by
  simp only [parseTextFull, bind_eq_ok, Prod.exists] at h
  obtain ⟨fn, w1, h1, dm, w2, h2, ds, w3, h3, pt, w4, h4, md, w5, h5, st, w6, h6, sp, w7, h7, al, w8, h8, td, w9, h9,
    h⟩ := h
  cases h
  refine ⟨rfl, ?_⟩
  rw [eq_of_parseBytes h1, eq_of_parseBytes h2, eq_of_parseBytes h3, eq_of_parseBytes h4, eq_of_parseBytes h5,
    eq_of_parseBytes h6, eq_of_parseBytes h7, eq_of_parseBytes h8, eq_of_parseBytes h9]
  simp [encode, Instr.selector, encodeOperands]

theorem isSpelling_of_parseClocksync (h : parseClocksync w = .ok (i, r)) : IsSpelling 0x33#8 w i r := by
  simp only [parseClocksync, bind_eq_ok, Prod.exists] at h
  obtain ⟨now, w1, h1, h⟩ := h
  cases h
  obtain ⟨hbounds, rfl⟩ := eq_of_parseNow h1
  exact ⟨hbounds, rfl⟩

/-- Whatever the decoder accepts after a selector is spelled as the encoder spells it: one case a row of R86's table, and
rows of one format (R87) share its reader. -/
theorem isSpelling_of_decodeOperands (h : decodeOperands selector w = .ok (i, r)) : IsSpelling selector w i r := by
  unfold decodeOperands at h
  split at h
  case h_1 => exact isSpelling_of_parseLookup (fun _ _ => ⟨rfl, rfl⟩) h -- F_LOOKUP
  case h_4 => exact isSpelling_of_parseTextFull h -- F_TEXTFULL
  case h_5 | h_6 => exact isSpelling_of_parseThree (fun _ _ _ => ⟨rfl, rfl⟩) h -- F_VAR, F_GFX
  case h_7 | h_8 => exact isSpelling_of_parseTwo (fun _ _ => ⟨rfl, rfl⟩) h -- F_SPECIAL
  case h_10 | h_11 => cases h; exact ⟨rfl, rfl⟩ -- F_NONE
  case h_13 => exact isSpelling_of_parseClocksync h -- F_NOW
  case h_31 => cases h -- a selector that no row lists
  all_goals exact isSpelling_of_parseOne (fun _ => ⟨rfl, rfl⟩) h

end

/-- The decoder of whole requests accepts what `decode` reads with nothing left over. -/
theorem decodeRequest_eq_ok_iff {w : Bytes} {i : Instr} : decodeRequest w = .ok i ↔ decode w = .ok (i, []) := by
  unfold decodeRequest
  split
  next h => simp [h]
  next h => simp [h]
  next h => simp [h]

/-- Settles O3: each format's reader accepts only what is written in that format. -/
theorem everyAcceptedRequestIsItsEncoding : Obligations.EveryAcceptedRequestIsItsEncoding := by
  intro w i h
  rw [decodeRequest_eq_ok_iff] at h
  cases w with
  | nil => cases h
  | cons selector w =>
    obtain ⟨hwf, hspelling⟩ := isSpelling_of_decodeOperands h
    rw [List.append_nil] at hspelling
    exact ⟨hwf, hspelling.symm⟩

/-! ### The operation map (R86, R88) -/

/-- The selector column of R86's table. -/
def operationMap : List Nat :=
  [0x00, 0x10, 0x11, 0x20, 0x21, 0x22, 0x23, 0x24, 0x25, 0x30, 0x31, 0x32, 0x33, 0x34, 0x35, 0x36, 0x37, 0x38, 0x39, 0x3A,
    0x40, 0x41, 0x42, 0x43, 0x44, 0x45, 0x46, 0x47, 0x48, 0x49]

/-- With zero operand bytes each of the thirty selectors reads as an operation of that selector. -/
theorem decodeTableWord_of_mem_operationMap :
    ∀ n ∈ operationMap, (decodeTableWord 8 n).map Instr.selector = some (BitVec.ofNat 8 n) := by decide

/-- A selector outside the map matches no row of the decoder. -/
theorem decodeOperands_of_not_mem_operationMap {b : Byte} (h : b.toNat ∉ operationMap) (w : Bytes) :
    decodeOperands b w = .error (.unknownSelector b) := by
  unfold decodeOperands
  split
  case h_31 => rfl
  all_goals exact absurd (by decide) h

/-- Settles O4: the rows of the decoder are the map, and every row reads zero bytes as its operands. -/
theorem knownSelectorsAreThoseOfTheOperationMap : Obligations.KnownSelectorsAreThoseOfTheOperationMap := by
  refine fun b => ⟨fun hb => ?_, fun hb w => ?_⟩
  · have h := decodeTableWord_of_mem_operationMap b.toNat hb
    rwa [BitVec.ofNat_toNat, BitVec.setWidth_eq, Option.map_eq_some_iff] at h
  · simp [decodeRequest, decode, decodeOperands_of_not_mem_operationMap hb w]

/-- Settles O1, by running the decoder. -/
theorem sampleRequestsDecode : Obligations.SampleRequestsDecode := by
  unfold Obligations.SampleRequestsDecode
  decide

namespace Machine

open Sys2Proof.Safety

/-- Settles O6, by what the step does with the request it takes. -/
theorem stepRefusesBytesThatAreNoRequest : Obligations.StepRefusesBytesThatAreNoRequest := by
  intro s request rest why hpending hdecode
  simp [step, State.takeRequest_cons hpending, hdecode]

/-! ### Bodies and their fields at their offsets (R72, R73, R75 to R77) -/

/-- Settles O19: the answered frame is around the operation's body, which has R71's shape with the family's code. -/
theorem everyBodyCarriesItsCommandCode : Obligations.EveryBodyCarriesItsCommandCode := by
  intro i s f code h ha hb hcode
  obtain ⟨own, bytes, hparts, rfl⟩ := frame_of_responds h
  obtain ⟨fields, rfl⟩ := frameParts_body_of_commandCode hcode hparts
  exact ⟨fields, frameOf_body_from_end ha hb _⟩

/-- The parts stand in the bytes one behind the other, from an offset on. -/
def PartsAt (f : Bytes) : Nat → List Bytes → Prop
  | _, [] => True
  | off, q :: rest => (f.drop off).take q.length = q ∧ PartsAt f (off + q.length) rest

@[simp] theorem partsAt_nil (f : Bytes) (off : Nat) : PartsAt f off [] := trivial

@[simp] theorem partsAt_cons (f : Bytes) (off : Nat) (q : Bytes) (rest : List Bytes) :
    PartsAt f off (q :: rest) ↔ (f.drop off).take q.length = q ∧ PartsAt f (off + q.length) rest := Iff.rfl

/-- A concatenation holds its parts one behind the other, whatever stands before and after them. -/
theorem partsAt_append_flatten_append {p : Bytes} {off : Nat} (hp : p.length = off) (parts : List Bytes) (r : Bytes) :
    PartsAt (p ++ parts.flatten ++ r) off parts := by
  induction parts generalizing p off with
  | nil => exact partsAt_nil _ _
  | cons q parts ih =>
    have hq : p ++ (q :: parts).flatten ++ r = p ++ q ++ (parts.flatten ++ r) := by simp
    have hrest : p ++ (q :: parts).flatten ++ r = (p ++ q) ++ parts.flatten ++ r := by simp
    rw [partsAt_cons]
    constructor
    · rw [hq]
      exact take_drop_append_append hp rfl
    · rw [hrest]
      exact ih (by simp [hp])

/-- With two-byte addresses STX and the code, the fields and ETX stand in the frame from offset 10 on (R55). -/
theorem partsAt_frameOf_body {a b : Bytes} (ha : a.length = 2) (hb : b.length = 2) (code : Byte) (fields : List Bytes) :
    PartsAt (frameOf a b (body code fields.flatten)) 10 ([STX, code] :: (fields ++ [[ETX]])) := by
  have hbody : body code fields.flatten = ([STX, code] :: (fields ++ [[ETX]])).flatten := by simp [body]
  rw [hbody, frameOf, List.append_assoc _ (cks _)]
  exact partsAt_append_flatten_append (by simp [ha, hb]) _ _

/-- The address checks are nominal exactly when both addresses have two bytes. -/
theorem addressChecks_nominal_iff (x : Session) :
    (∀ c ∈ addressChecks x, c.Nominal) ↔ x.senderAddress.length = 2 ∧ x.receiverAddress.length = 2 := by
  simp [addressChecks]

theorem bodyText_eq_flatten (fn dm ds pt md st sp prep al td : Bytes) :
    bodyText fn dm ds pt md st sp prep al td = body codeText [fn, dm, ds, pt, md, st, sp, prep, al, td].flatten := by
  simp [bodyText]

theorem bodyGfx_eq_flatten (fn attr p : Bytes) : bodyGfx fn attr p = body codeGfx [fn, attr, p].flatten := by
  simp [bodyGfx]

/-- Settles O27: the fields of the body follow one another, each as long as its nominal width. -/
theorem writeTextFrameHasTheLayoutOfItsTable : Obligations.WriteTextFrameHasTheLayoutOfItsTable := by
  intro s fn dm ds pt md st sp al td f hnominal h
  obtain ⟨hown, haddresses⟩ := List.forall_mem_append.mp hnominal
  obtain ⟨ha, hb⟩ := (addressChecks_nominal_iff _).mp haddresses
  simp only [textChecks, List.forall_mem_cons, Check.Nominal] at hown
  obtain ⟨hfn, hdm, hds, hpt, hmd, hst, hsp, hal, -⟩ := hown
  have hlength := frameLengthIsTheSumOfItsParts _ s f _ h rfl
  refine ⟨by omega, ?_⟩
  obtain ⟨own, bytes, hparts, rfl⟩ := frame_of_responds h
  cases hparts
  have hlayout := partsAt_frameOf_body ha hb codeText [fn, dm, ds, pt, md, st, sp, readReg .prep s.session, al, td]
  simp only [← bodyText_eq_flatten, List.cons_append, List.nil_append, partsAt_cons, partsAt_nil, readReg_prep,
    List.length_cons, List.length_nil, hfn, hdm, hds, hpt, hmd, hst, hsp, hal, Nat.reduceAdd, and_true] at hlayout
  exact hlayout

/-- R75: the layout of a graphics body in its frame. -/
theorem frameOf_bodyGfx_layout {a b fn attr : Bytes} (ha : a.length = 2) (hb : b.length = 2) (hfn : fn.length = 1)
    (hattr : attr.length = 5) (p : Bytes) :
    let f := frameOf a b (bodyGfx fn attr p)
    f.length = 24 + p.length ∧ (f.drop 10).take 2 = [STX, codeGfx] ∧ (f.drop 12).take 1 = fn ∧ (f.drop 13).take 5 = attr ∧
      (f.drop 18).take p.length = p ∧ (f.drop (18 + p.length)).take 1 = [ETX] := by
  refine ⟨by simp [bodyGfx, ha, hb, hfn, hattr]; omega, ?_⟩
  have hlayout := partsAt_frameOf_body ha hb codeGfx [fn, attr, p]
  simp only [← bodyGfx_eq_flatten, List.cons_append, List.nil_append, partsAt_cons, partsAt_nil, List.length_cons,
    List.length_nil, hfn, hattr, Nat.reduceAdd, and_true] at hlayout
  exact hlayout

/-- R76, R77: the layout of a special body, written or read, in its frame. -/
theorem frameOf_special_layout {a b sub : Bytes} (ha : a.length = 2) (hb : b.length = 2) (code : Byte)
    (hsub : sub.length = 1) (p : Bytes) :
    let f := frameOf a b (body code (sub ++ p))
    f.length = 19 + p.length ∧ (f.drop 10).take 2 = [STX, code] ∧ (f.drop 12).take 1 = sub ∧
      (f.drop 13).take p.length = p ∧ (f.drop (13 + p.length)).take 1 = [ETX] := by
  refine ⟨by simp [ha, hb, hsub]; omega, ?_⟩
  have hlayout := partsAt_frameOf_body ha hb code [sub, p]
  simp only [List.flatten_cons, List.flatten_nil, List.append_nil, List.cons_append, List.nil_append, partsAt_cons,
    partsAt_nil, List.length_cons, List.length_nil, hsub, Nat.reduceAdd, and_true] at hlayout
  exact hlayout

/-- Settles O28: each answered frame is around its operation's body, whose fields follow one another. -/
theorem graphicsAndSpecialFramesHaveTheirLayouts : Obligations.GraphicsAndSpecialFramesHaveTheirLayouts := by
  refine ⟨fun s fn attr p f hfn hattr haddresses h => ?_, fun s sub p f g hsub haddresses hf hg => ?_⟩
  · obtain ⟨ha, hb⟩ := (addressChecks_nominal_iff _).mp haddresses
    obtain ⟨own, bytes, hparts, rfl⟩ := frame_of_responds h
    cases hparts
    exact frameOf_bodyGfx_layout ha hb hfn hattr p
  · obtain ⟨ha, hb⟩ := (addressChecks_nominal_iff _).mp haddresses
    obtain ⟨fown, fbytes, hfparts, rfl⟩ := frame_of_responds hf
    obtain ⟨gown, gbytes, hgparts, rfl⟩ := frame_of_responds hg
    cases hfparts
    cases hgparts
    obtain ⟨hflength, hfcode, hfsub, hfpayload, hfetx⟩ := frameOf_special_layout ha hb codeWriteSpecial hsub p
    exact ⟨hflength, hfcode, hfsub, hfpayload, hfetx, frameOf_special_layout ha hb codeReadSpecial hsub p⟩

/-! ### The pseudo-operations (R91) -/

/-- A check passes under `BYPASS` and for a value of the nominal width (R182). -/
theorem checkLen_eq_none {mode : Validate} {f : Field} {v : Bytes} (h : mode = .bypass ∨ v.length = f.width) :
    checkLen mode f v = none := by
  rcases h with rfl | h
  · exact checkLen_bypass f v
  · exact checkLen_nominal h

/-- A special function whose payload passes its check does what `WR_SPECIAL` of its subcommand does (R140). -/
theorem State.specialFunction_eq_writeSpecial {f : Field} {p : Bytes} {s : State}
    (h : s.config.validate = .bypass ∨ p.length = f.width) (sub : Byte) :
    s.specialFunction f sub p = s.writeSpecial [sub] p := by
  simp [State.specialFunction, checkLen_eq_none h]

/-- Settles O33: the expansions without a check are the meanings themselves; the others' check passes. -/
theorem specialFunctionsAreWriteSpecial : Obligations.SpecialFunctionsAreWriteSpecial := by
  intro s
  have special (f : Field) (sub : Byte) (p : Bytes) (h : s.config.validate = .bypass ∨ p.length = f.width) :
      Host.Outcome.next (φ := Fault) (ρ := Refusal) (s.specialFunction f sub p) = exec (.wrSpecial [sub] p) s :=
    congrArg Host.Outcome.next (State.specialFunction_eq_writeSpecial h sub)
  refine ⟨rfl, rfl, fun now hbounds => if_pos hbounds, fun p => ?_, fun _ => rfl⟩
  exact ⟨special .clock _ p, special .password _ p, special .deviceNumber _ p, special .windows _ p, fun h =>
    ⟨special .sfDisplayMode _ p h, special .cueVoice _ p h, special .passwordMode _ p h, special .brightness _ p h⟩⟩

end Machine

end Sys2Proof
end

section
/-! SUPPORT and PROOFS. The code tables (40_code_tables.md): what `LOOKUP` answers, and that a code names one option. -/

namespace Sys2Proof

/-- In an injective table two names with one code are the same name (R100). -/
theorem CodeTable.Injective.name_eq_of_mem {t : CodeTable} (ht : t.Injective) {n m : Name} {c : Byte}
    (hn : (n, c) ∈ t) (hm : (m, c) ∈ t) : n = m := by
  have hcodes : (t.map Prod.snd).Nodup := List.pairwise_map.mpr (ht.imp And.right)
  exact congrArg Prod.fst (List.inj_on_of_nodup_map hcodes hn hm rfl)

namespace Machine

open Sys2Proof.Safety

/-- A code that `LOOKUP` answers stands in the table beside the name (R101). -/
theorem mem_table_of_lookup_responds_code {s : State} {t : TableId} {n : Name} {c : Byte}
    (h : Responds (.lookup t n) s (.code c)) : (n, c) ∈ s.config.tables.table t := by
  cases hread : memRead s.config.tables t n with
  | some d =>
    have hresponses := (responds_iff_of_exec (exec_lookup_of_some hread) _).mp h
    obtain rfl : d = c := by simpa using hresponses
    exact mem_of_codeOf hread
  | none =>
    have hresponses := (responds_iff_of_exec (exec_lookup_of_none hread) _).mp h
    simp at hresponses

/-- Settles O8: in an injective table the read of a key finds the code beside it. -/
theorem lookupOfAKeyAnswersItsCode : Obligations.LookupOfAKeyAnswersItsCode :=
  fun _ t _ _ hadmissible hmem => exec_lookup_of_some (codeOf_of_mem (hadmissible.injective t) hmem)

/-- Settles O9: the read of a name that is no key finds nothing, whatever the mode. -/
theorem lookupOfAnUnknownNameIsAnError : Obligations.LookupOfAnUnknownNameIsAnError :=
  fun _ _ _ hunknown => exec_lookup_of_none (codeOf_eq_none.mpr hunknown)

/-- Settles O10: both answers stand in the table, which is injective. -/
theorem lookupIsInjective : Obligations.LookupIsInjective :=
  fun _ t _ _ _ hadmissible hn hm =>
    (hadmissible.injective t).name_eq_of_mem (mem_table_of_lookup_responds_code hn) (mem_table_of_lookup_responds_code hm)

end Machine

end Sys2Proof
end

section
/-! SUPPORT and PROOFS. The Checksum Calculator and the Frame Builder (41_checksum_frame.md): what the four digits spell,
which frame or error a frame-building operation answers, and what the checksum of a frame covers. -/

namespace Sys2Proof.Machine

open Sys2Proof.Safety

/-! ### The checksum (R110 to R113) -/

/-- `CHECKSUM` answers the checksum of its operand and nothing else (R112). -/
theorem answers_checksum_iff {s : State} {data c : Bytes} : Answers (.checksum data) s (.cks c) ↔ c = cks data := by
  simp [Answers, exec_checksum, State.respond, eq_comm]

/-- R111: the checksum spells the byte sum modulo 65536. -/
theorem hexValue_cks_eq_byteSum_mod (w : Bytes) : hexValue (cks w) = byteSum w % 65536 := by
  rw [hexValue_cks, sumBytes_eq_byteSum]

/-- R110: as long as the byte sum fits in four digits, the checksum spells it. -/
theorem hexValue_cks_of_fits {w : Bytes} (h : byteSum w ≤ 0xFFFF) : hexValue (cks w) = byteSum w := by
  rw [hexValue_cks_eq_byteSum_mod]
  exact Nat.mod_eq_of_lt (by omega)

/-- R113: each byte adds at most 255 to the sum. -/
theorem byteSum_le (w : Bytes) : byteSum w ≤ 255 * w.length :=
  sumBytes_eq_byteSum w ▸ sumBytes_le w

theorem sumBytes_replicate (n : Nat) (b : Byte) : sumBytes (List.replicate n b) = n * b.toNat := by
  simp [sumBytes_eq_byteSum, byteSum]

/-- R113: 258 bytes `FF` sum to `100FE`, of which the reduction of D1 leaves `00FE`. -/
theorem cks_replicate_258 : cks (List.replicate 258 0xFF#8) = [0x30#8, 0x30#8, 0x46#8, 0x45#8] := by
  rw [cks, s16, sumBytes_replicate]
  decide

/-- Settles O11: the answer is the checksum, whose shape and value its laws give. -/
theorem checksumIsFourUppercaseHexDigits : Obligations.ChecksumIsFourUppercaseHexDigits :=
  fun _ b => ⟨cks b, answers_checksum_iff.mpr rfl, cks_length b, cks_upperHex b, hexValue_cks_of_fits⟩

/-- Settles O12: the answer is the checksum, which spells the reduced sum. -/
theorem checksumSpellsTheSumModulo65536 : Obligations.ChecksumSpellsTheSumModulo65536 :=
  fun _ b => ⟨cks b, answers_checksum_iff.mpr rfl, hexValue_cks_eq_byteSum_mod b⟩

/-- Settles O13: the checksum is a function of the sum, and rearranged bytes have the same sum. -/
theorem checksumIgnoresByteOrder : Obligations.ChecksumIgnoresByteOrder := by
  intro s b1 b2 c hperm h
  rw [answers_checksum_iff] at h ⊢
  exact h.trans (cks_congr (sumBytes_perm hperm))

/-- Settles O14: 257 bytes sum to at most `FFFF`, which fits in four digits, and 258 bytes `FF` do not. -/
theorem checksumDoesNotWrapUpTo257Bytes : Obligations.ChecksumDoesNotWrapUpTo257Bytes := by
  refine ⟨fun s b => ⟨byteSum_le b, fun hlength => ?_⟩, fun s => answers_checksum_iff.mpr cks_replicate_258.symm⟩
  have hfits : byteSum b ≤ 0xFFFF :=
    calc byteSum b ≤ 255 * b.length := byteSum_le b
      _ ≤ 255 * 257 := Nat.mul_le_mul_left 255 hlength
  exact ⟨cks b, answers_checksum_iff.mpr rfl, hexValue_cks_of_fits hfits⟩

/-! ### The frame or the error that is answered (R114, R120, R188) -/

/-- The claims' check for a field the model checks: the field with its nominal width and its value. -/
def checkOf (c : Field × Bytes) : Check := ⟨c.1, c.1.width, c.2⟩

/-- The Frame Builder's two checks in the claims' terms (R114). -/
theorem map_checkOf_addressFields (x : Session) : (addressFields x).map checkOf = addressChecks x := rfl

/-- A run of checks passes under `BYPASS`, and when every field is nominal (R182). -/
theorem checkAll_eq_none_of_nominal {mode : Validate} {cs : List (Field × Bytes)}
    (h : mode = .bypass ∨ ∀ c ∈ cs.map checkOf, c.Nominal) : checkAll mode cs = none := by
  rcases h with rfl | h
  · exact checkAll_bypass cs
  · exact checkAll_nominal (List.forall_mem_map.mp h)

/-- Under `ENFORCE` a run of checks raises the error of the first field that is not nominal (R182, R188). -/
theorem checkAll_eq_some_of_first_malformed {cs : List (Field × Bytes)} {before after : List Check} {c : Check}
    (hcs : cs.map checkOf = before ++ c :: after) (hbefore : ∀ d ∈ before, d.Nominal) (hc : ¬ c.Nominal) :
    checkAll .enforce cs = some (.malformedField c.field c.width c.value.length) := by
  obtain ⟨pre, post, rfl, rfl, hpost⟩ := List.map_eq_append_iff.mp hcs
  obtain ⟨⟨f, v⟩, rest, rfl, rfl, -⟩ := List.map_eq_cons_iff.mp hpost
  have hv : checkLen .enforce f v = some (.malformedField f f.width v.length) := checkLen_malformed hc
  rw [checkAll_append (List.forall_mem_map.mp hbefore)]
  simp [checkAll, hv, checkOf]

/-- What an encoder answers: the frame around its body, or the error of its checks (R120). -/
theorem State.encodeBody_of_checkAll_none {own : List (Field × Bytes)} {s : State}
    (h : checkAll s.config.validate (own ++ addressFields s.session) = none) (bytes : Bytes) :
    s.encodeBody own bytes = s.respond (.frame (framed s bytes)) := by
  rw [State.encodeBody_eq, h]
  rfl

theorem State.encodeBody_of_checkAll_some {own : List (Field × Bytes)} {s : State} {e : Error}
    (h : checkAll s.config.validate (own ++ addressFields s.session) = some e) (bytes : Bytes) :
    s.encodeBody own bytes = s.respond (.error e) := by
  rw [State.encodeBody_eq, h]

/-- Every frame-building operation answers the frame around its body, or the first error among its own checks and the two
address checks. -/
theorem buildsFrame_of_frameParts {i : Instr} {s : State} {own : List (Field × Bytes)} {bytes : Bytes}
    (hwf : i.wellFormed = true) (hparts : frameParts i s.session = some (own, bytes)) :
    BuildsFrame i s (own.map checkOf) bytes := by
  have hexec : exec i s = .next (s.encodeBody own bytes) := exec_of_frameParts hwf hparts
  have hchecks : (own ++ addressFields s.session).map checkOf = own.map checkOf ++ addressChecks s.session := by
    rw [List.map_append, map_checkOf_addressFields]
  constructor
  · intro hnominal
    rw [← hchecks] at hnominal
    exact hexec.trans (congrArg _ (State.encodeBody_of_checkAll_none (checkAll_eq_none_of_nominal hnominal) bytes))
  · intro before c after hmode hfirst hbefore hc
    have herror := checkAll_eq_some_of_first_malformed (hchecks.trans hfirst) hbefore hc
    rw [← hmode] at herror
    exact hexec.trans (congrArg _ (State.encodeBody_of_checkAll_some herror bytes))

/-- Settles O15: `BUILD_FRAME` has no checks of its own, and its body is its operand. -/
theorem buildFrameWrapsAnyBody : Obligations.BuildFrameWrapsAnyBody :=
  fun _ _ => buildsFrame_of_frameParts (own := []) rfl rfl

/-! ### What the checksum of a frame covers (R115) -/

/-- Whatever the lengths of the addresses, the checksum is the four bytes before EOT. -/
theorem frameOf_checksum_before_eot (a b bytes : Bytes) :
    ((frameOf a b bytes).drop ((frameOf a b bytes).length - 5)).take 4 = cks bytes := by
  have hoffset : (frameOf a b bytes).length - 5 = 6 + a.length + b.length + bytes.length := by rw [frameOf_length]; omega
  rw [hoffset, frameOf_checksum]

/-- The frame that `BUILD_FRAME` answers carries the checksum of its operand, in any state (R114, R115). -/
theorem checksum_of_buildFrame_responds {s : State} {bytes f : Bytes} (h : Responds (.buildFrame bytes) s (.frame f)) :
    (f.drop (f.length - 5)).take 4 = cks bytes := by
  obtain ⟨own, body, hparts, rfl⟩ := frame_of_responds h
  cases hparts
  exact frameOf_checksum_before_eot _ _ bytes

/-- STX and ETX add 5 to the sum of what stands between them (R115). -/
theorem byteSum_between_stx_etx (fields : Bytes) : byteSum ([STX] ++ fields ++ [ETX]) = 5 + byteSum fields := by
  simp [byteSum, STX, ETX]
  omega

/-- Settles O20: both frames carry the checksum of the body, which spells the body's sum. -/
theorem checksumCoversTheBodyOnly : Obligations.ChecksumCoversTheBodyOnly := by
  intro s1 s2 fields f1 f2 h1 h2
  have hsum : byteSum ([0x02#8] ++ fields ++ [0x03#8]) = 5 + byteSum fields := byteSum_between_stx_etx fields
  rw [checksum_of_buildFrame_responds h1, checksum_of_buildFrame_responds h2, ← hsum]
  exact ⟨rfl, hexValue_cks_of_fits⟩

end Sys2Proof.Machine
end

section
/-! SUPPORT and PROOFS. The command encoders (42_command_encoders.md): the bytes of each body as its rule writes them,
and the frame or error that each encoder answers. -/

namespace Sys2Proof.Machine

/-! ### The bodies as one concatenation (R121 to R129) -/

/-- Two fields between STX, the command code and ETX: the shape of the special bodies (R127, R129). -/
theorem body_two (code : Byte) (a b : Bytes) : body code (a ++ b) = [0x02#8, code] ++ a ++ b ++ [0x03#8] := by
  simp [body, STX, ETX]

/-- Three fields between STX, the command code and ETX: the shape of the variable and graphics bodies (R123, R125). -/
theorem body_three (code : Byte) (a b c : Bytes) :
    body code (a ++ b ++ c) = [0x02#8, code] ++ a ++ b ++ c ++ [0x03#8] := by
  simp [body, STX, ETX]

/-- R121: the Write-text body in body order, with the hardwired `prep` between the stop time and the alignment. -/
theorem bodyText_readReg_prep (fn dm ds pt md st sp al td : Bytes) (x : Session) :
    bodyText fn dm ds pt md st sp (readReg .prep x) al td =
      [0x02#8, 0x41#8] ++ fn ++ dm ++ ds ++ pt ++ md ++ st ++ sp ++ [0x30#8, 0x30#8, 0x30#8] ++ al ++ td ++ [0x03#8] := by
  simp [bodyText, body, STX, codeText, ETX]

/-! ### What each encoder answers (R120) -/

/-- Settles O22: `WR_TEXT` checks its eight operands and builds the body of them and the hardwired `prep`. -/
theorem writeTextBuildsItsFrame : Obligations.WriteTextBuildsItsFrame := by
  intro s fn dm ds pt md st sp al td
  rw [← bodyText_readReg_prep fn dm ds pt md st sp al td s.session]
  exact buildsFrame_of_frameParts (own := textFields fn dm ds pt md st sp al) rfl rfl

/-- Settles O23: `TEXT` checks and frames the registers as they stand, with the body of `WR_TEXT`. -/
theorem textBuildsTheFrameOfTheSession : Obligations.TextBuildsTheFrameOfTheSession := by
  intro s td
  rw [← bodyText_readReg_prep _ _ _ _ _ _ _ _ td s.session]
  exact buildsFrame_of_frameParts (own := textFields s.session.filename s.session.displayMode s.session.displaySpeed
    s.session.pauseTime s.session.showDateMask s.session.startTime s.session.stopTime s.session.align) rfl rfl

/-- Settles O24: `WR_VAR` checks its code and attribute, and its body holds them and the data alone. -/
theorem writeVariableBuildsItsFrame : Obligations.WriteVariableBuildsItsFrame := by
  intro s v a d
  rw [← body_three]
  exact buildsFrame_of_frameParts (own := [(.variableCode, v), (.varAttr, a)]) rfl rfl

/-- Settles O25: `WR_GFX` checks and frames its own filename and attribute; the pixel data are not checked. -/
theorem writeGraphicsBuildsItsFrame : Obligations.WriteGraphicsBuildsItsFrame := by
  intro s fn a p
  rw [← body_three]
  exact buildsFrame_of_frameParts (own := [(.filename, fn), (.gfxAttr, a)]) rfl rfl

/-- Settles O26: both encoders check their subcommand alone, and their bodies differ in the command code only. -/
theorem specialEncodersBuildTheirFrames : Obligations.SpecialEncodersBuildTheirFrames := by
  intro s sub p
  rw [← body_two, ← body_two]
  exact ⟨buildsFrame_of_frameParts (own := [(.subcommand, sub)]) rfl rfl,
    buildsFrame_of_frameParts (own := [(.subcommand, sub)]) rfl rfl⟩

end Sys2Proof.Machine
end

section
/-! SUPPORT and PROOFS. The special functions (43_special_functions.md): the constant frames, the frames around a payload,
the digits of a time, and the times that are no request. -/

namespace Sys2Proof.Machine

open Sys2Proof.Safety

/-! ### The two constant frames (R141, R142) -/

/-- The two address checks decide everything that an operation without checks of its own answers (R114, R188). -/
theorem buildsFrame_address_cases {i : Instr} {s : State} {bytes : Bytes} (h : BuildsFrame i s [] bytes) :
    (s.config.validate = .bypass ∨ s.session.senderAddress.length = 2 ∧ s.session.receiverAddress.length = 2 →
      Answers i s (.frame (framed s bytes))) ∧
    (s.config.validate = .enforce → s.session.senderAddress.length ≠ 2 →
      Answers i s (.error (.malformedField .senderAddress 2 s.session.senderAddress.length))) ∧
    (s.config.validate = .enforce → s.session.senderAddress.length = 2 → s.session.receiverAddress.length ≠ 2 →
      Answers i s (.error (.malformedField .receiverAddress 2 s.session.receiverAddress.length))) := by
  obtain ⟨hframe, herror⟩ := h
  refine ⟨fun hpass => hframe (hpass.imp_right (addressChecks_nominal_iff _).mpr), fun hmode hsender => ?_,
    fun hmode hsender hreceiver => ?_⟩
  · exact herror [] ⟨.senderAddress, 2, _⟩ [⟨.receiverAddress, 2, _⟩] hmode rfl (List.forall_mem_nil _) hsender
  · exact herror [⟨.senderAddress, 2, _⟩] ⟨.receiverAddress, 2, _⟩ [] hmode rfl (List.forall_mem_singleton.mpr hsender)
      hreceiver

/-- The frame around a body whose checksum is known, as one constant behind the addresses (R54). -/
theorem framed_eq_of_cks {bytes digits : Bytes} (h : cks bytes = digits) (s : State) :
    framed s bytes = [0x00#8, 0x00#8, 0x00#8, 0x00#8, 0x00#8, 0x01#8] ++ s.session.senderAddress ++
      s.session.receiverAddress ++ (bytes ++ digits ++ [0x04#8]) := by
  simp [framed, h]

/-- The body `02 57 4C 03` sums to `00A8` (R141). -/
theorem cks_body_clear : cks [0x02#8, 0x57#8, 0x4C#8, 0x03#8] = [0x30#8, 0x30#8, 0x41#8, 0x38#8] := by decide

/-- The body `02 57 42 03` sums to `009E` (R142). -/
theorem cks_body_reset : cks [0x02#8, 0x57#8, 0x42#8, 0x03#8] = [0x30#8, 0x30#8, 0x39#8, 0x45#8] := by decide

/-- Settles O29: both operations frame their constant body and have no checks but the two addresses. -/
theorem clearAndResetBuildTheirConstantFrames : Obligations.ClearAndResetBuildTheirConstantFrames := by
  refine ⟨decodeRequest_encode (i := .sfClear) rfl, decodeRequest_encode (i := .sfReset) rfl, fun s => ?_⟩
  have clear : BuildsFrame .sfClear s [] [0x02#8, 0x57#8, 0x4C#8, 0x03#8] := buildsFrame_of_frameParts (own := []) rfl rfl
  have reset : BuildsFrame .sfReset s [] [0x02#8, 0x57#8, 0x42#8, 0x03#8] := buildsFrame_of_frameParts (own := []) rfl rfl
  obtain ⟨hclear, hclearSender, hclearReceiver⟩ := buildsFrame_address_cases clear
  obtain ⟨hreset, hresetSender, hresetReceiver⟩ := buildsFrame_address_cases reset
  rw [framed_eq_of_cks cks_body_clear] at hclear
  rw [framed_eq_of_cks cks_body_reset] at hreset
  exact ⟨fun h => ⟨hclear h, hreset h⟩, fun hmode h => ⟨hclearSender hmode h, hresetSender hmode h⟩,
    fun hmode h h' => ⟨hclearReceiver hmode h h', hresetReceiver hmode h h'⟩⟩

/-! ### The frames around a payload (R143, R145 to R151) -/

/-- The body of a one-byte subcommand and a payload (R76, R78). -/
theorem bodyWriteSpecial_one (sub : Byte) (p : Bytes) :
    bodyWriteSpecial [sub] p = [0x02#8, 0x57#8, sub] ++ p ++ [0x03#8] := rfl

/-- A special function with a payload checks the payload as its field and frames it behind its subcommand (R140). -/
theorem buildsFrame_of_payload {i : Instr} {s : State} {f : Field} {sub : Byte} {p : Bytes} (hwf : i.wellFormed = true)
    (hparts : frameParts i s.session = some ([(f, p)], bodyWriteSpecial [sub] p)) :
    BuildsFrame i s [⟨f, f.width, p⟩] ([0x02#8, 0x57#8, sub] ++ p ++ [0x03#8]) := by
  rw [← bodyWriteSpecial_one]
  exact buildsFrame_of_frameParts hwf hparts

/-- Settles O30: the eight functions differ in their subcommand and in the field of their payload only. -/
theorem payloadFunctionsBuildTheirFrames : Obligations.PayloadFunctionsBuildTheirFrames := by
  intro s p
  exact ⟨buildsFrame_of_payload (i := .sfClock p) rfl rfl, buildsFrame_of_payload (i := .sfPassword p) rfl rfl,
    buildsFrame_of_payload (i := .sfDevnum p) rfl rfl, buildsFrame_of_payload (i := .sfWindows p) rfl rfl,
    buildsFrame_of_payload (i := .sfDispmode p) rfl rfl, buildsFrame_of_payload (i := .sfCuevoice p) rfl rfl,
    buildsFrame_of_payload (i := .sfPwmode p) rfl rfl, buildsFrame_of_payload (i := .sfBright p) rfl rfl⟩

/-! ### The time (R144) -/

/-- A check that always passes can be left out. -/
theorem buildsFrame_of_cons_nominal {i : Instr} {s : State} {c : Check} {own : List Check} {bytes : Bytes}
    (h : BuildsFrame i s (c :: own) bytes) (hc : c.Nominal) : BuildsFrame i s own bytes := by
  obtain ⟨hframe, herror⟩ := h
  constructor
  · intro hpass
    exact hframe (hpass.imp_right fun hown => List.forall_mem_cons.mpr ⟨hc, hown⟩)
  · intro before d after hmode hfirst hbefore hd
    exact herror (c :: before) d after hmode (congrArg (c :: ·) hfirst) (List.forall_mem_cons.mpr ⟨hc, hbefore⟩) hd

/-- R79: the digits of the seven numbers stand one behind the other in the clock payload. -/
theorem fmtNow_fields (now : Now) :
    (fmtNow now).take 4 = dec 4 now.year ∧ ((fmtNow now).drop 4).take 2 = dec 2 now.month ∧
    ((fmtNow now).drop 6).take 2 = dec 2 now.day ∧ ((fmtNow now).drop 8).take 2 = dec 2 now.hour ∧
    ((fmtNow now).drop 10).take 2 = dec 2 now.minute ∧ ((fmtNow now).drop 12).take 2 = dec 2 now.second ∧
    (fmtNow now).drop 14 = dec 1 now.weekday := by
  have hparts := partsAt_append_flatten_append (p := []) rfl [dec 4 now.year, dec 2 now.month, dec 2 now.day,
    dec 2 now.hour, dec 2 now.minute, dec 2 now.second, dec 1 now.weekday] []
  simpa [fmtNow, List.take_of_length_le] using hparts

theorem fmtNow_digits (now : Now) : ∀ d ∈ fmtNow now, 0x30 ≤ d.toNat ∧ d.toNat ≤ 0x39 := by
  simp only [fmtNow, List.forall_mem_append]
  and_intros <;> exact dec_digits _ _

/-- R144's bounds, one for each number, as its field of digits needs them. -/
theorem bounds_of_inBounds {now : Now} (h : now.inBounds = true) :
    now.year < 10 ^ 4 ∧ now.month < 10 ^ 2 ∧ now.day < 10 ^ 2 ∧ now.hour < 10 ^ 2 ∧ now.minute < 10 ^ 2 ∧
      now.second < 10 ^ 2 ∧ now.weekday < 10 ^ 1 := by
  simp only [Now.inBounds, Bool.and_eq_true, decide_eq_true_eq] at h
  omega

/-- `SF_CLOCKSYNC` frames the formatted time, whose length passes the clock's check, so only the addresses are left to
check. -/
theorem buildsFrame_sfClocksync {now : Now} (h : now.inBounds = true) (s : State) :
    BuildsFrame (.sfClocksync now) s [] ([0x02#8, 0x57#8, 0x41#8] ++ fmtNow now ++ [0x03#8]) :=
  buildsFrame_of_cons_nominal (buildsFrame_of_payload h rfl) (fmtNow_length now)

/-- Settles O31: the payload is the formatted time, and each of its fields reads back as the number it spells. -/
theorem clockSyncSpellsTheTime : Obligations.ClockSyncSpellsTheTime := by
  intro s now hbounds
  obtain ⟨hyear, hmonth, hday, hhour, hminute, hsecond, hweekday⟩ := bounds_of_inBounds hbounds
  obtain ⟨pyear, pmonth, pday, phour, pminute, psecond, pweekday⟩ := fmtNow_fields now
  refine ⟨fmtNow now, buildsFrame_sfClocksync hbounds s, fmtNow_length now, fmtNow_digits now, ?_⟩
  rw [pyear, pmonth, pday, phour, pminute, psecond, pweekday]
  exact ⟨decValue_dec 4 _ hyear, decValue_dec 2 _ hmonth, decValue_dec 2 _ hday, decValue_dec 2 _ hhour,
    decValue_dec 2 _ hminute, decValue_dec 2 _ hsecond, decValue_dec 1 _ hweekday⟩

/-- Settles O32: the meaning refuses such a time, and what the decoder accepts is well formed. -/
theorem timeOutOfBoundsIsNoRequest : Obligations.TimeOutOfBoundsIsNoRequest := by
  intro now hout
  refine ⟨exec_sfClocksync_refused hout, fun w hdecode => ?_⟩
  obtain ⟨hwf, -⟩ := everyAcceptedRequestIsItsEncoding w _ hdecode
  exact Bool.false_ne_true (hout.symm.trans hwf)

end Sys2Proof.Machine
end

section
/-! PROOFS. The setters: each stores its operand whole and answers `Ok` (R160 to R170). -/

namespace Sys2Proof.Machine

open Sys2Proof.Safety

/-- Settles O34: a setter configures the register `setting` gives it, and does nothing else. -/
theorem settersStoreTheirOperand : Obligations.SettersStoreTheirOperand := by
  intro s v
  have store {i : Instr} (r : Reg) (h : setting i = some (r, v)) : exec i s = .next (s.configure r v) :=
    exec_of_setting h s
  exact ⟨store .senderAddress rfl, store .receiverAddress rfl, store .filename rfl, store .displayMode rfl,
    store .displaySpeed rfl, store .pauseTime rfl, store .showDateMask rfl, store .startTime rfl, store .stopTime rfl,
    store .align rfl⟩

end Sys2Proof.Machine
end

section
/-! SUPPORT and PROOFS. The exceptions (60_exceptions.md): which operation answers which error and why, that an error
changes nothing else, the frame under `BYPASS`, and the idle block. -/

namespace Sys2Proof.Machine

open Sys2Proof.Safety

/-! ### Where an error comes from (R180 to R187, R191) -/

/-- An encoder that answers an error has answered the first error of its own checks and the address checks (R188). -/
theorem State.checkAll_of_encodeBody_error {own : List (Field × Bytes)} {bytes : Bytes} {s : State} {e : Error}
    (h : (s.encodeBody own bytes).responses = s.responses ++ [.error e]) :
    checkAll s.config.validate (own ++ addressFields s.session) = some e := by
  rw [State.encodeBody_eq] at h
  cases hchecks : checkAll s.config.validate (own ++ addressFields s.session) with
  | some e' => simpa [hchecks] using h
  | none => simp [hchecks] at h

/-- Everything an error can be: the first failed check of a frame-building operation, or a name that `LOOKUP` does not
find. -/
inductive Raises : Instr → State → Error → Prop
  /-- A check of the operation's own fields or of the addresses failed (R181, R188). -/
  | check {i s own bytes e} (hparts : frameParts i s.session = some (own, bytes))
      (h : checkAll s.config.validate (own ++ addressFields s.session) = some e) : Raises i s e
  /-- `LOOKUP` of a name that is no key (R185). -/
  | unknown {s t n} (h : memRead s.config.tables t n = none) : Raises (.lookup t n) s (.unknownOption t n)

/-- The inversion of an operation that answers an error: the error has one of its two causes, and the operation has done
nothing but respond it (R187). -/
theorem raises_of_exec_error {i : Instr} {s t : State} {e : Error} (h : exec i s = .next t)
    (hresponses : t.responses = s.responses ++ [.error e]) : Raises i s e ∧ t = s.respond (.error e) := by
  cases performs_of_exec h with
  | @frame _ _ own bytes hparts =>
    have hchecks := State.checkAll_of_encodeBody_error hresponses
    exact ⟨.check hparts hchecks, State.encodeBody_of_checkAll_some hchecks bytes⟩
  | unknown hread =>
    obtain rfl : _ = e := by simpa using hresponses
    exact ⟨.unknown hread, rfl⟩
  | store | code | checksum => simp at hresponses

theorem raises_of_responds {i : Instr} {s : State} {e : Error} (h : Responds i s (.error e)) : Raises i s e := by
  obtain ⟨t, hexec, hresponses⟩ := h
  exact (raises_of_exec_error hexec hresponses).1

/-- Settles O38: an operation that answers an error has done nothing but respond it. -/
theorem errorsChangeNothing : Obligations.ErrorsChangeNothing :=
  fun _ _ _ _ hexec hresponses => (raises_of_exec_error hexec hresponses).2

/-- A field that an operation checks and finds malformed is one that R191's table gives it. The one field that the table
leaves out, the formatted time of `SF_CLOCKSYNC`, is never malformed. -/
theorem ownChecks_of_frameParts {i : Instr} {x : Session} {own : List (Field × Bytes)} {bytes : Bytes}
    (hparts : frameParts i x = some (own, bytes)) :
    ∃ cs, ownChecks i x = some cs ∧ ∀ c ∈ own, ¬ (checkOf c).Nominal → checkOf c ∈ cs := by
  cases i <;> cases hparts
  case sfClocksync now =>
    exact ⟨[], rfl, List.forall_mem_singleton.mpr fun hmalformed => absurd (fmtNow_length now) hmalformed⟩
  all_goals exact ⟨_, rfl, fun c hc _ => List.mem_map_of_mem (f := checkOf) hc⟩

/-- The same for all the checks of the operation, with those of the two addresses. -/
theorem allChecks_of_frameParts {i : Instr} {x : Session} {own : List (Field × Bytes)} {bytes : Bytes}
    (hparts : frameParts i x = some (own, bytes)) :
    ∃ cs, allChecks i x = some cs ∧ ∀ c ∈ own ++ addressFields x, ¬ (checkOf c).Nominal → checkOf c ∈ cs := by
  obtain ⟨cs, hcs, hown⟩ := ownChecks_of_frameParts hparts
  refine ⟨cs ++ addressChecks x, by simp [allChecks, hcs], fun c hc hmalformed => List.mem_append.mpr ?_⟩
  rcases List.mem_append.mp hc with hc | hc
  · exact .inl (hown c hc hmalformed)
  · exact .inr (List.mem_map_of_mem (f := checkOf) hc)

/-- `MalformedField` is raised under `ENFORCE` only, for a check of the operation that found another length (R181). -/
theorem Raises.malformedField {i : Instr} {s : State} {f : Field} {w n : Nat} (h : Raises i s (.malformedField f w n)) :
    s.config.validate = .enforce ∧ ∃ cs, allChecks i s.session = some cs ∧
      ∃ c ∈ cs, c.field = f ∧ c.width = w ∧ c.value.length = n ∧ n ≠ w := by
  cases h with
  | check hparts hchecks =>
    obtain ⟨hmode, c, hc, hmalformed, herror⟩ := checkAll_some hchecks
    obtain ⟨cs, hcs, hmem⟩ := allChecks_of_frameParts hparts
    cases herror
    exact ⟨hmode, cs, hcs, checkOf c, hmem c hc hmalformed, rfl, rfl, rfl, hmalformed⟩

/-- Nothing raises `UnrepresentableChecksum` (R184, D1). -/
theorem not_raises_unrepresentableChecksum (i : Instr) (s : State) (n : Nat) :
    ¬ Raises i s (.unrepresentableChecksum n) := by
  intro h
  cases h with
  | check _ hchecks =>
    obtain ⟨-, c, -, -, herror⟩ := checkAll_some hchecks
    cases herror

/-- `UnknownOption` is raised by `LOOKUP` only, for its own operands, of which the name is no key (R185). -/
theorem Raises.unknownOption {i : Instr} {s : State} {t : TableId} {n : Name} (h : Raises i s (.unknownOption t n)) :
    i = .lookup t n ∧ ¬ (s.config.tables.table t).HasKey n := by
  cases h with
  | check _ hchecks =>
    obtain ⟨-, c, -, -, herror⟩ := checkAll_some hchecks
    cases herror
  | unknown hread => exact ⟨rfl, codeOf_eq_none.mp hread⟩

/-- Settles O39: each kind of error has the operation and the cause that the two ways to raise one leave it. -/
theorem eachErrorHasItsOperationAndCause : Obligations.EachErrorHasItsOperationAndCause :=
  fun i s => ⟨fun _ _ _ h => (raises_of_responds h).malformedField,
    fun n h => not_raises_unrepresentableChecksum i s n (raises_of_responds h),
    fun _ _ h => (raises_of_responds h).unknownOption⟩

/-! ### Frames under `BYPASS` (R186) -/

/-- Every operation with a body length builds a body. -/
theorem frameParts_of_bodyLength {i : Instr} {x : Session} {n : Nat} (h : bodyLength i x = some n) :
    ∃ own bytes, frameParts i x = some (own, bytes) := by
  cases i <;> cases h <;> exact ⟨_, _, rfl⟩

theorem framed_eq_frameOf (s : State) (bytes : Bytes) :
    framed s bytes = frameOf s.session.senderAddress s.session.receiverAddress bytes := rfl

/-- A frame begins with its header and SOH, whatever the addresses. -/
theorem frameOf_take_six (a b bytes : Bytes) : (frameOf a b bytes).take 6 = [NUL, NUL, NUL, NUL, NUL, SOH] := by
  simp [frameOf]

/-- A frame ends with EOT, whatever the addresses. -/
theorem frameOf_getLast? (a b bytes : Bytes) : (frameOf a b bytes).getLast? = some EOT :=
  List.getLast?_concat

/-- Settles O40: under `BYPASS` no check raises anything, so the frame around the operation's body is answered. -/
theorem bypassAlwaysBuildsTheFrame : Obligations.BypassAlwaysBuildsTheFrame := by
  intro i s hbypass
  constructor
  · intro f w n h
    obtain ⟨henforce, -⟩ := (raises_of_responds h).malformedField
    cases hbypass.symm.trans henforce
  · intro hwf n hn
    obtain ⟨own, bytes, hparts⟩ := frameParts_of_bodyLength hn
    obtain ⟨hanswers, -⟩ := buildsFrame_of_frameParts hwf hparts
    refine ⟨framed s bytes, hanswers (.inl hbypass), ?_, frameOf_take_six _ _ _, frameOf_getLast? _ _ _⟩
    rw [framed_eq_frameOf, frameOf_length, frameParts_body_length hn hparts]

/-! ### The idle block (R199) -/

/-- Settles O7: with nothing pending there is no request to take. -/
theorem idleBlockHoldsItsState : Obligations.IdleBlockHoldsItsState := by
  intro s hpending
  simp [step, State.takeRequest_nil hpending]

end Sys2Proof.Machine
end

section
/-! SUPPORT and PROOFS. Reset and hazards (70_reset_and_hazards.md): what creating a session gives each register, that a
nominal session stays nominal, what a setter in between and a malformed address do, and where a scan of the text ends. -/

namespace Sys2Proof

/-! ### Well-formed text holds no frame control byte (R85, R223) -/

theorem isFrameControl_eq_false_iff {b : Byte} : isFrameControl b = false ↔ b ≠ 0x02#8 ∧ b ≠ 0x03#8 ∧ b ≠ 0x04#8 := by
  simp [isFrameControl, and_assoc]

/-- A printable byte is above the frame control bytes. -/
theorem isFrameControl_eq_false_of_ge {b : Byte} (h : 0x20 ≤ b.toNat) : isFrameControl b = false := by
  rw [isFrameControl_eq_false_iff]
  refine ⟨?_, ?_, ?_⟩ <;> rintro rfl <;> exact absurd h (by decide)

/-- Neither a lead byte nor the code behind it is a frame control byte (R81). -/
theorem isFrameControl_eq_false_of_wfInline {ts : Tables} {lead code : Byte} (h : wfInline ts lead code = true) :
    isFrameControl lead = false ∧ isFrameControl code = false := by
  simp only [wfInline, Bool.and_eq_true, Bool.or_eq_true, Bool.not_eq_true', beq_iff_eq] at h
  obtain ⟨hcode, ((⟨rfl, -⟩ | ⟨rfl, -⟩) | rfl) | rfl⟩ := h <;> exact ⟨rfl, hcode⟩

/-- R223: well-formed text holds no frame control byte, by its recursion: each byte is printable, or a lead byte or the code
behind one. -/
theorem isFrameControl_eq_false_of_wfText {ts : Tables} {td : Bytes} (h : wfText ts td = true) :
    ∀ b ∈ td, isFrameControl b = false := by
  induction td using wfText.induct with
  | case1 => exact List.forall_mem_nil _
  | case2 b =>
    have hb : 0x20 ≤ b.toNat ∧ b.toNat ≤ 0x7E := of_decide_eq_true h
    exact List.forall_mem_singleton.mpr (isFrameControl_eq_false_of_ge hb.1)
  | case3 b c rest hb ih =>
    rw [wfText, if_pos hb] at h
    exact List.forall_mem_cons.mpr ⟨isFrameControl_eq_false_of_ge hb.1, ih h⟩
  | case4 b c rest hb ih =>
    rw [wfText, if_neg hb, Bool.and_eq_true] at h
    obtain ⟨hinline, hrest⟩ := h
    obtain ⟨hlead, hcode⟩ := isFrameControl_eq_false_of_wfInline hinline
    exact List.forall_mem_cons.mpr ⟨hlead, List.forall_mem_cons.mpr ⟨hcode, ih hrest⟩⟩

/-- Well-formed text holds none of the three bytes. -/
theorem frameControl_not_mem_of_wfText {ts : Tables} {td : Bytes} (h : wfText ts td = true) :
    0x02#8 ∉ td ∧ 0x03#8 ∉ td ∧ 0x04#8 ∉ td := by
  have absent (b : Byte) (hb : isFrameControl b = true) : b ∉ td := fun hmem =>
    Bool.false_ne_true ((isFrameControl_eq_false_of_wfText h b hmem).symm.trans hb)
  exact ⟨absent _ rfl, absent _ rfl, absent _ rfl⟩

namespace Machine

open Sys2Proof.Safety

/-! ### The scan to the first ETX (R223) -/

/-- Bytes found at the front, and one byte found behind them, split what they were found in. -/
theorem eq_append_cons_of_take {w td : Bytes} {e : Byte} (htd : w.take td.length = td)
    (he : (w.drop td.length).take 1 = [e]) : w = td ++ e :: w.drop (td.length + 1) := by
  calc w = w.take td.length ++ ((w.drop td.length).take 1 ++ (w.drop td.length).drop 1) := by
        rw [List.take_append_drop, List.take_append_drop]
    _ = td ++ e :: w.drop (td.length + 1) := by rw [htd, he, List.drop_drop, List.singleton_append]

/-- A scan to a byte that the text does not hold, and that stands behind it, gives the text. -/
theorem takeWhile_ne_append_cons {td : Bytes} {e : Byte} (h : e ∉ td) (rest : Bytes) :
    (td ++ e :: rest).takeWhile (· != e) = td := by
  have hpass : ∀ b ∈ td, (b != e) = true := fun b hb => bne_iff_ne.mpr (ne_of_mem_of_not_mem hb h)
  rw [List.takeWhile_append_of_pos hpass]
  simp

/-- A scan to a byte that the text holds ends within the text. -/
theorem length_takeWhile_ne_append_lt {td : Bytes} {e : Byte} (h : e ∈ td) (rest : Bytes) :
    ((td ++ rest).takeWhile (· != e)).length < td.length := by
  obtain ⟨before, after, rfl, hbefore⟩ := List.eq_append_cons_of_mem h
  have hscan : (before ++ e :: after ++ rest).takeWhile (· != e) = before := by
    rw [List.append_assoc, List.cons_append]
    exact takeWhile_ne_append_cons hbefore _
  rw [hscan, List.length_append, List.length_cons]
  omega

/-- Settles O51: in the layout of the Write-text frame the text is followed by ETX, which well-formed text does not hold. -/
theorem wellFormedTextIsFoundByScanningToEtx : Obligations.WellFormedTextIsFoundByScanningToEtx := by
  refine ⟨fun _ _ => frameControl_not_mem_of_wfText, fun s fn dm ds pt md st sp al td f hnominal h => ?_⟩
  obtain ⟨-, -, -, -, -, -, -, -, -, -, -, htext, hetx⟩ :=
    writeTextFrameHasTheLayoutOfItsTable s fn dm ds pt md st sp al td f hnominal h
  rw [← List.drop_drop] at hetx
  have hsplit := eq_append_cons_of_take htext hetx
  refine ⟨htext, fun hwf => ?_, fun hmem => ?_⟩
  · obtain ⟨-, hfree, -⟩ := frameControl_not_mem_of_wfText hwf
    rw [hsplit]
    exact takeWhile_ne_append_cons hfree _
  · rw [hsplit]
    exact length_takeWhile_ne_append_lt hmem _

/-! ### Creating a session (R210, R211) -/

/-- A key of a table has a code. -/
theorem exists_codeOf_of_hasKey {t : CodeTable} {k : Name} (h : t.HasKey k) : ∃ c, codeOf t k = some c :=
  Option.ne_none_iff_exists'.mp fun hnone => codeOf_eq_none.mp hnone h

/-- Settles O45: the three required keys have their codes, and every other register is given its value. -/
theorem resetGivesEveryRegisterItsValue : Obligations.ResetGivesEveryRegisterItsValue := by
  intro c sender receiver fn hadmissible
  obtain ⟨-, -, -, -, -, -, hmode, hspeed, halign⟩ := hadmissible
  obtain ⟨m, hm⟩ := exists_codeOf_of_hasKey hmode
  obtain ⟨d, hd⟩ := exists_codeOf_of_hasKey hspeed
  obtain ⟨a, ha⟩ := exists_codeOf_of_hasKey halign
  refine ⟨m, d, a, mem_of_codeOf hm, mem_of_codeOf hd, mem_of_codeOf ha, ?_⟩
  simp [State.create, memRead, Tables.table, hm, hd, ha]

/-! ### Nominal sessions (R212) -/

/-- A session is nominal when each register, the hardwired one included, has its width (R21). -/
theorem nominalSession_iff {x : Session} : NominalSession x ↔ ∀ r, (readReg r x).length = r.width := by
  constructor
  · rintro ⟨ha, hb, hfn, hdm, hds, hpt, hmd, hst, hsp, hal⟩ (_ | _)
    case prep => rfl
    all_goals assumption
  · intro h
    exact ⟨h .senderAddress, h .receiverAddress, h .filename, h .displayMode, h .displaySpeed, h .pauseTime,
      h .showDateMask, h .startTime, h .stopTime, h .align⟩

/-- A session created with nominal inputs is nominal. -/
theorem nominalSession_create {c : Config} {sender receiver fn : Bytes} (hadmissible : c.tables.Admissible)
    (hsender : sender.length = 2) (hreceiver : receiver.length = 2) (hfn : fn.length = 1) :
    NominalSession
      (State.create c { senderInit := sender, receiverInit := receiver, filenameInit := fn }).session := by
  obtain ⟨m, d, a, -, -, -, hcreate⟩ := resetGivesEveryRegisterItsValue c sender receiver fn hadmissible
  rw [hcreate]
  exact ⟨hsender, hreceiver, hfn, rfl, rfl, rfl, rfl, rfl, rfl, rfl⟩

/-- An operation that stores, if anything, a value of its register's width keeps a session nominal. -/
theorem nominalSession_of_exec {i : Instr} {s t : State} (hs : NominalSession s.session)
    (hset : ∀ r v, setting i = some (r, v) → v.length = r.width) (h : exec i s = .next t) :
    NominalSession t.session := by
  rw [nominalSession_iff] at hs ⊢
  intro r
  obtain ⟨hwritten, hkept⟩ := onlyItsSetterWritesARegister.1 i s t r h
  by_cases hown : ∃ v, setting i = some (r, v)
  · obtain ⟨v, hv⟩ := hown
    rw [hwritten v hv, hset r v hv]
  · rw [hkept (not_exists.mp hown), hs r]

/-- No operation has a field of its own that is named as an address (R191). -/
theorem ownChecks_field_ne_address {i : Instr} {x : Session} {cs : List Check} (h : ownChecks i x = some cs) :
    ∀ c ∈ cs, c.field ≠ .senderAddress ∧ c.field ≠ .receiverAddress := by
  cases i <;> cases h
  case wrText | text => simp [textChecks]
  all_goals simp

/-- With two-byte addresses a malformed field is never an address. -/
theorem malformedField_ne_address {i : Instr} {s : State} {f : Field} {w n : Nat}
    (haddresses : ∀ c ∈ addressChecks s.session, c.Nominal) (h : Responds i s (.error (.malformedField f w n))) :
    f ≠ .senderAddress ∧ f ≠ .receiverAddress := by
  obtain ⟨-, cs, hcs, c, hc, rfl, rfl, rfl, hmalformed⟩ := (raises_of_responds h).malformedField
  obtain ⟨own, hown, rfl⟩ := Option.map_eq_some_iff.mp hcs
  rcases List.mem_append.mp hc with hc | hc
  · exact ownChecks_field_ne_address hown c hc
  · exact absurd (haddresses c hc) hmalformed

/-- In a nominal session the checks of `TEXT`, of its registers and of the addresses, are nominal. -/
theorem checks_nominal_of_nominalSession {x : Session} (h : NominalSession x) :
    (∀ c ∈ textChecks x.filename x.displayMode x.displaySpeed x.pauseTime x.showDateMask x.startTime x.stopTime x.align,
      c.Nominal) ∧ ∀ c ∈ addressChecks x, c.Nominal := by
  obtain ⟨ha, hb, htext⟩ := h
  refine ⟨?_, (addressChecks_nominal_iff x).mpr ⟨ha, hb⟩⟩
  simpa [textChecks, Check.Nominal] using htext

/-- In a nominal session `TEXT` answers a frame: all its checks are of registers. -/
theorem text_answers_frame {s : State} (hs : NominalSession s.session) (td : Bytes) :
    ∃ f, Answers (.text td) s (.frame f) := by
  obtain ⟨hframe, -⟩ := textBuildsTheFrameOfTheSession s td
  exact ⟨_, hframe (.inr (List.forall_mem_append.mpr (checks_nominal_of_nominalSession hs)))⟩

/-- With two-byte addresses `BUILD_FRAME` answers a frame: it checks nothing else. -/
theorem buildFrame_answers_frame {s : State} (haddresses : ∀ c ∈ addressChecks s.session, c.Nominal) (bytes : Bytes) :
    ∃ f, Answers (.buildFrame bytes) s (.frame f) := by
  obtain ⟨hframe, -⟩ := buildFrameWrapsAnyBody s bytes
  exact ⟨_, hframe (.inr haddresses)⟩

/-- Settles O47: at creation, by one operation, and then in what operations answer. -/
theorem nominalSessionsStayNominal : Obligations.NominalSessionsStayNominal := by
  refine ⟨fun _ _ _ _ => nominalSession_create, fun _ _ _ => nominalSession_of_exec, fun i s w n hs => ?_,
    fun s b hs => ?_⟩
  · obtain ⟨-, haddresses⟩ := checks_nominal_of_nominalSession hs
    exact ⟨fun h => (malformedField_ne_address haddresses h).1 rfl,
      fun h => (malformedField_ne_address haddresses h).2 rfl⟩
  · obtain ⟨-, haddresses⟩ := checks_nominal_of_nominalSession hs
    exact ⟨text_answers_frame hs b, buildFrame_answers_frame haddresses b⟩

/-! ### Hazards (R220, R221) -/

/-- Under `ENFORCE` an encoder whose checks are not all nominal answers an error and does nothing else (R182, R187). -/
theorem State.encodeBody_of_malformed {own : List (Field × Bytes)} {s : State} (hmode : s.config.validate = .enforce)
    (h : ¬ ∀ c ∈ own ++ addressFields s.session, c.2.length = c.1.width) (bytes : Bytes) :
    ∃ e, s.encodeBody own bytes = s.respond (.error e) := by
  rw [← checkAll_enforce_eq_none_iff, ← hmode] at h
  obtain ⟨e, he⟩ := Option.ne_none_iff_exists'.mp h
  exact ⟨e, State.encodeBody_of_checkAll_some he bytes⟩

/-- Settles O44: the address checks are among those that every frame-building operation runs. -/
theorem malformedAddressBlocksEveryFrame : Obligations.MalformedAddressBlocksEveryFrame := by
  intro i s cs hmode hwf hcs hmalformed
  obtain ⟨own, bytes, hparts, -⟩ := frameParts_of_ownChecks hcs
  have hfields : ¬ ∀ c ∈ own ++ addressFields s.session, c.2.length = c.1.width := by
    rw [List.forall_mem_append, addressFields_nominal_iff, addressChecks_nominal_iff]
    rintro ⟨-, hsender, hreceiver⟩
    exact hmalformed.elim (absurd hsender) (absurd hreceiver)
  obtain ⟨e, he⟩ := State.encodeBody_of_malformed hmode hfields bytes
  exact ⟨e, (exec_of_frameParts hwf hparts).trans (congrArg _ he)⟩

theorem perform_of_setting {i : Instr} {r : Reg} {v : Bytes} (h : setting i = some (r, v)) (s : State) :
    perform i s = s.configure r v :=
  perform_eq_of_exec (exec_of_setting h s)

theorem perform_of_answers {i : Instr} {s : State} {r : Response} (h : Answers i s r) : perform i s = s.respond r :=
  perform_eq_of_exec h

/-- Settles O35: of two writes of the receiver address the second one stands when `SF_CLEAR` reads it. -/
theorem interveningSetterRedirectsTheFrame : Obligations.InterveningSetterRedirectsTheFrame := by
  intro s v w hsender hw
  have hsetters : perform (.cfgReceiver w) (perform (.cfgReceiver v) s) =
      (s.configure .receiverAddress v).configure .receiverAddress w := by
    rw [perform_of_setting rfl, perform_of_setting rfl]
  obtain ⟨-, -, hclearReset⟩ := clearAndResetBuildTheirConstantFrames
  obtain ⟨hframe, -⟩ := hclearReset ((s.configure .receiverAddress v).configure .receiverAddress w)
  obtain ⟨hclear, -⟩ := hframe (.inr ⟨hsender, hw⟩)
  rw [performAll_cons, performAll_cons, performAll_cons, performAll_nil, hsetters, perform_of_answers hclear]
  simp [writeReg]

end Machine

end Sys2Proof
end
